-- ==== Sys2Proof/Config.lean ====
section
/-! DEFINITION. What an implementation fixes, and the values the spec leaves open (spec/00_scope.md R7,
spec/93_implementation_defined.md U1, U7, U13, U14). -/

namespace Sys2Proof.Config

/-- `SW`: the width in bits of step counts, positions, command operands and responses. A named parameter of the spec,
here at its default (R7, D4, U13; log entry 1, DESIGN CHOICE, unsafe for a block of another width). Every definition
of the model takes the width from here. -/
abbrev SW : Nat := 16

/-- `TW`: the width in bits of the clock, of `lastStepTimestamp` and of `INTERVAL`. A named parameter of the spec, here
at its default (R7, D3, U13; log entry 1, DESIGN CHOICE, unsafe for a block of another width). Every definition of the
model takes the width from here. -/
abbrev TW : Nat := 32

/-- `TIE_FORWARD`: the direction MOVETO takes at exactly half a revolution. The source leaves it open; the spec
fixes it to forward (R69, D16). -/
def tieForward : Bool := true

/-- `CFG_SPR` of the construction that `State.reset` stands for: the source's one example value (log entry 2,
DESIGN CHOICE, unsafe). A reset input brings its own. -/
def spr : BitVec SW := 4096

/-- `CFG_INTERVAL` of the construction that `State.reset` stands for: a value of the spec's test vectors
(log entry 2, DESIGN CHOICE, unsafe). A reset input brings its own. -/
def interval : BitVec TW := 1000

/-- `LAST_RESET` of the construction that `State.reset` stands for (R139 leaves it open; log entry 3, DESIGN CHOICE,
unsafe). A reset input brings its own, which may be any value. -/
def lastReset : BitVec TW := 0

/-- The response, if any, of a command that a reset cut short. R140 and U14 leave it open, so this is a FREE VALUE:
it has no body, and the step applies it to the counter `State.draws` (log entry 6, DESIGN CHOICE, safe). -/
opaque cutResponse : Nat → Option (BitVec SW)

end Sys2Proof.Config
end

