-- ==== Sys2Proof/Word.lean ====
section
/-! DEFINITION. The bit-vector types of the block (spec/00_scope.md R7, R8; spec/30_encoding.md R46, R50), at the
widths that `Config.SW` and `Config.TW` name. -/

namespace Sys2Proof

/-- An SW-bit step count, operand or response (R7, R50). -/
abbrev Count := BitVec Config.SW

/-- A TW-bit microsecond value (R7). -/
abbrev Micros := BitVec Config.TW

/-- A 3-bit index into the phase table (R11). -/
abbrev Phase := BitVec 3

/-- The four line levels in the order A, B, C, D, that is `LINES[3:0]` (R18, R53). -/
abbrev Levels := BitVec 4

/-- The 4-bit opcode field of a command word (R46). -/
abbrev Opcode := BitVec 4

/-- The command word `CW`, `SW + 4` bits: four of opcode above SW of operand (R46). -/
abbrev CommandWord := BitVec (4 + Config.SW)

end Sys2Proof
end

