-- ==== Sys2Proof/Syntax.lean ====
section
/-! DEFINITION. The six commands of the block (spec/30_encoding.md R47), one constructor per row of the opcode table. -/

namespace Sys2Proof

/-- A decoded command. POLL, STOP, RDPOS and RDREM have no operand: their `arg` bits select nothing (R55). -/
inductive Instr where
  /-- POLL, the time-driven step engine (R80). -/
  | poll
  /-- MOVE: a relative move by the signed `delta` (R65, R48). -/
  | move (delta : Count)
  /-- MOVETO: an absolute move to the unsigned `target` (R67, R49). -/
  | moveTo (target : Count)
  /-- STOP: the immediate halt (R110). -/
  | stop
  /-- RDPOS: read `currentStep` (R112). -/
  | rdpos
  /-- RDREM: read `remainingSteps` (R113). -/
  | rdrem
deriving DecidableEq, Repr

end Sys2Proof
end

