-- ==== Sys2Proof/Decode.lean ====
section
/-! DEFINITION. Command words to commands and back (spec/30_encoding.md R45 to R49, R55, R56, R58). -/

namespace Sys2Proof

/-- `CW[SW+3:SW]`, the opcode field (R46). -/
def CommandWord.op (w : CommandWord) : Opcode := w.extractLsb' Config.SW 4

/-- `CW[SW-1:0]`, the operand field (R46). -/
def CommandWord.arg (w : CommandWord) : Count := w.extractLsb' 0 Config.SW

/-- Why the decoder says `invalid`. -/
inductive DecodeError where
  /-- Opcodes 0x6 to 0xF spell no command (R56). -/
  | reservedOpcode (op : Opcode)
deriving DecidableEq, Repr

/-- The opcode map (R47). The opcode field alone selects the command (R58); operand bits of a command without
operand are ignored (R55). Total on every word: a reserved opcode is rejected by name (R56). -/
def decode (w : CommandWord) : Except DecodeError Instr :=
  match (CommandWord.op w).toNat with
  | 0 => .ok .poll
  | 1 => .ok (.move (CommandWord.arg w))
  | 2 => .ok (.moveTo (CommandWord.arg w))
  | 3 => .ok .stop
  | 4 => .ok .rdpos
  | 5 => .ok .rdrem
  | _ => .error (.reservedOpcode (CommandWord.op w))

/-- The opcode number of a command (R47). -/
def Instr.opcode : Instr → Opcode
  | .poll => 0x0
  | .move _ => 0x1
  | .moveTo _ => 0x2
  | .stop => 0x3
  | .rdpos => 0x4
  | .rdrem => 0x5

/-- The operand field an assembler writes: the operand, or 0 where there is none (R55, R59). -/
def Instr.operand : Instr → Count
  | .poll => 0
  | .move delta => delta
  | .moveTo target => target
  | .stop => 0
  | .rdpos => 0
  | .rdrem => 0

/-- The canonical command word of a command: opcode above operand (R46, R59). -/
def encode (i : Instr) : CommandWord := i.opcode ++ i.operand

/-- The command word in the low `SW + 4` bits of a number; the bits above are no part of the command port (R46, log
entry 12). -/
def CommandWord.ofBits (w : Nat) : CommandWord := BitVec.ofNat (4 + Config.SW) w

/-- The command the decoder reads from bits numbered as spec/opcode_table.json numbers them. A command is one
indivisible word (R38, R46); `nbits` counts whole bytes and reaches past the word's top bit (log entry 12). -/
def decodeTableWord (_nbits w : Nat) : Option Instr :=
  match decode (CommandWord.ofBits w) with
  | .ok i => some i
  | .error _ => none

end Sys2Proof
end

