-- ==== Sys2Proof/Machine/State.lean ====
section
/-! DEFINITION. The state of the block (spec/10_state.md R10 to R27), the events it shows (spec/00_scope.md R8),
what the host and the clock present to it (spec/70_reset_and_hazards.md R150), and the reasons a step can stop. -/

namespace Sys2Proof.Machine

/-- The four names of the output lines (R32). -/
inductive LineId where
  | a | b | c | d
deriving DecidableEq, Repr

/-- One observable access: a clock read, or one update of the four lines (R8, R41). -/
inductive Event where
  /-- `ClockRead(t)`: the block sampled the clock (R36). -/
  | clockRead (t : Micros)
  /-- `Apply(v)`: the block wrote all four lines (R97). -/
  | apply (v : Levels)
deriving DecidableEq, Repr

/-- What the world outside the block presents to it (R6, R150): the host's commands and resets, and the clock.
DESIGN CHOICE (log entry 4): the inputs to come are plain data that the step reads. -/
inductive HostInput where
  /-- The host presents one command word (R40). -/
  | command (word : CommandWord)
  /-- The host presents `second` before `first` has completed, which R149 forbids it. -/
  | overlap (first second : CommandWord)
  /-- The clock input now reads `t`: any value, under no law (R36, D22). -/
  | clock (t : Micros)
  /-- The host asserts reset with these configuration inputs (R135). `lastReset` is the open `LAST_RESET` of this
  construction (R139); `midCommand` says that a command was in progress, so that its response is undefined (R140). -/
  | reset (cfgSpr : Count) (cfgInterval lastReset : Micros) (midCommand : Bool)
deriving DecidableEq, Repr

/-- A constructed instance: the registers of R10 and the two traces of R8, interleaved, oldest event first. -/
@[ext]
structure Driver where
  /-- R11: index into the phase table. -/
  phase : Phase
  /-- R12: absolute position, unsigned. -/
  currentStep : Count
  /-- R13: signed steps left; the sign is the direction. -/
  remainingSteps : Count
  /-- R14: clock sample of the last step taken. -/
  lastStepTimestamp : Micros
  /-- R15: `SPR`, steps per revolution. -/
  spr : Count
  /-- R16: `INTERVAL`, microseconds between steps. -/
  interval : Micros
  /-- R18: `LINES`, the levels of A, B, C, D. -/
  lines : Levels
  /-- R8: the output trace and the clock trace of this instance, in the order of R41. -/
  trace : List Event
deriving DecidableEq, Repr

/-- The machine: the block and what stands at its inputs. -/
@[ext]
structure State where
  /-- The instance, or `none` where there is none: before construction and after a failed one (R27, R122). -/
  driver : Option Driver
  /-- R19: `LINE_OE`, the lines are in output mode. -/
  lineOe : Bool
  /-- R20: `CFG_ERR`, construction failed. -/
  cfgErr : Bool
  /-- R50: the response word of the command last answered, if one has been. -/
  rsp : Option Count
  /-- R36: the level at the clock input, which `now()` reads. -/
  now : Micros
  /-- R150: what the host and the clock present from here on, oldest first. -/
  inputs : List HostInput
  /-- The model's own counter of free responses drawn (log entry 6). -/
  draws : Nat
deriving DecidableEq, Repr

/-- Why the machine can stop with a fault. -/
inductive Fault where
  /-- R120: the configuration is invalid. Raised by `construct` alone. The reset that asked for the construction
  TAKES it as a next state with CFG_ERR = 1 (R125), so no step ends in it. Safe. -/
  | invalidConfiguration
deriving DecidableEq, Repr

/-- Why a command has no meaning. The first is the pipeline's; the other four are the spec's `refuse(reason)` (R57). -/
inductive Refusal where
  /-- An instruction of the table that the model does not cover yet; no arm of `exec` answers so. Safe. -/
  | notModelled (mnemonic : String)
  /-- R56: the opcode is reserved. Raised by the step on such a word. Safe: nothing is proved past it. -/
  | reservedOpcode
  /-- R70: a MOVETO target at or above SPR. Raised by MOVETO. Safe: nothing is proved past it. -/
  | targetOutOfRange
  /-- R122: there is no instance to command. Raised by every command. Safe: nothing is proved past it. -/
  | notConstructed
  /-- R149: a second command before the first has completed. Raised by the step. Safe: nothing is proved past it. -/
  | concurrentCommand
deriving DecidableEq, Repr

/-- The machine right after reset: a construction that succeeded (R27) from the configuration named in `Config`,
with nothing presented yet. -/
def State.reset : State where
  driver := some
    { phase := 0, currentStep := 0, remainingSteps := 0, lastStepTimestamp := Config.lastReset
      spr := Config.spr, interval := Config.interval, lines := 0, trace := [] }
  lineOe := true
  cfgErr := false
  rsp := none
  now := 0
  inputs := []
  draws := 0

end Sys2Proof.Machine
end

