-- ==== Sys2Proof/Machine/Operands.lean ====
section
/-! DEFINITION. How operands are read and results narrowed (spec/00_scope.md R8, spec/30_encoding.md R48, R49), and
the arithmetic of position and path (spec/40_move_commands.md R67 to R69, spec/41_poll_step_engine.md R85). -/

namespace Sys2Proof.Machine

/-- `sext_N(v)`: the value read as two's complement (R8). -/
abbrev sext {w : Nat} (v : BitVec w) : Int := v.toInt

/-- `zext_N(v)`: the value read as unsigned (R8). -/
abbrev zext {w : Nat} (v : BitVec w) : Int := (v.toNat : Int)

/-- `trunc_N(i)`: the N-bit value congruent to `i` modulo 2^N (R8). -/
abbrev trunc (w : Nat) (i : Int) : BitVec w := BitVec.ofInt w i

/-- The signed number of steps of the shorter arc from `current` to `target` on a circle of `spr` steps: one wrap by
`spr` where the plain difference exceeds half a revolution (R67, R68), and the tie at exactly half resolved forward,
or left with the sign of the plain difference where `tieForward` is false (R69). -/
def shorterArc (tieForward : Bool) (spr current target : Int) : Int :=
  let delta := target - current
  if 2 * |delta| > spr then
    if delta > 0 then delta - spr else delta + spr
  else if 2 * |delta| = spr then
    if tieForward then spr / 2 else delta
  else delta

/-- `(currentStep + 1) mod SPR` at every width (R85). SPR = 0, which no
construction leaves (R15), is log entry 16. -/
def nextPosition {w : Nat} (spr current : BitVec w) : BitVec w := trunc w ((zext current + 1) % zext spr)

/-- `(currentStep - 1) mod SPR`, floored modulo, at every width (R85, R8). -/
def prevPosition {w : Nat} (spr current : BitVec w) : BitVec w := trunc w ((zext current - 1) % zext spr)

end Sys2Proof.Machine
end

