-- ==== Sys2Proof/Machine/Flags.lean ====
section
/-! DEFINITION. The predicates that play the part of flags (spec/10_state.md R21) and the test of the step-interval
timer (spec/41_poll_step_engine.md R82 to R84). The block has no flag register; nothing stores these. -/

namespace Sys2Proof.Machine

/-- `idle`: `remainingSteps = 0`, on all SW bits (R21, R81). -/
def Driver.idle (d : Driver) : Bool := d.remainingSteps == 0

/-- `forward`: `sext(remainingSteps) > 0` (R21). -/
def Driver.forward (d : Driver) : Bool := decide (sext d.remainingSteps > 0)

/-- `reverse`: `sext(remainingSteps) < 0` (R21). -/
def Driver.reverse (d : Driver) : Bool := decide (sext d.remainingSteps < 0)

/-- `energized`: some line is high (R21). -/
def Driver.energized (d : Driver) : Bool := d.lines != 0

/-- `(t - last) mod 2^TW`: the subtraction with the borrow out discarded (R82). Stated at every width. -/
def elapsed {w : Nat} (t last : BitVec w) : BitVec w := t - last

/-- A step is due at sample `t`: `elapsed >= INTERVAL`, compared as unsigned; equality is due (R83, R84). -/
def Driver.due (t : Micros) (d : Driver) : Bool := decide (d.interval ≤ elapsed t d.lastStepTimestamp)

end Sys2Proof.Machine
end

