-- ==== Sys2Proof/Machine/Ops.lean ====
section
/-! DEFINITION. The named operations over the state: the phase table and the lines (spec/20_memory.md R31 to R36), the
five internal operations (spec/42_phase_output_sequencer.md R95 to R101), construction and its fault
(spec/70_reset_and_hazards.md R135, spec/60_exceptions.md R120, R125, R126), and how a command is answered. -/

namespace Sys2Proof.Machine

/-- `PAT[p]`, the half-step phase table, levels in the order A, B, C, D (R31, R54). -/
def pat (p : Phase) : Levels :=
  match p.toNat with
  | 0 => 0b1001
  | 1 => 0b0001
  | 2 => 0b0011
  | 3 => 0b0010
  | 4 => 0b0110
  | 5 => 0b0100
  | 6 => 0b1100
  | _ => 0b1000

/-- The bit of `LINES` that holds a line's level (R18, R53). -/
def LineId.bit : LineId → Nat
  | .a => 3
  | .b => 2
  | .c => 1
  | .d => 0

/-- The level of one line, `true` = H = 1 (R53). -/
def lineLevel (v : Levels) (id : LineId) : Bool := v.getLsbD id.bit

/-- `setLine(id, level)`: one line takes a level, the other three keep theirs (R33). -/
def setLine (id : LineId) (level : Bool) (v : Levels) : Levels :=
  (v &&& ~~~((1 : Levels) <<< id.bit)) ||| ((if level then (1 : Levels) else 0) <<< id.bit)

/-- The four `setLine` calls of one application, in the order R97 lists them. -/
def setAllLines (v old : Levels) : Levels :=
  setLine .d (lineLevel v .d) (setLine .c (lineLevel v .c) (setLine .b (lineLevel v .b) (setLine .a (lineLevel v .a) old)))

/-- `apply(v)`: all four lines are written as one update, and the output trace gets `Apply(v)` (R97, R34). -/
def Driver.apply (v : Levels) (d : Driver) : Driver :=
  { d with lines := setAllLines v d.lines, trace := d.trace ++ [.apply v] }

/-- The forward phase transition: +1 modulo 8, then the new phase's pattern (R98). -/
def Driver.stepForward (d : Driver) : Driver :=
  Driver.apply (pat (d.phase + 1)) { d with phase := d.phase + 1 }

/-- The reverse phase transition: -1 modulo 8, then the new phase's pattern (R99). -/
def Driver.stepReverse (d : Driver) : Driver :=
  Driver.apply (pat (d.phase - 1)) { d with phase := d.phase - 1 }

/-- Power-up: the pattern of the unchanged phase (R100). -/
def Driver.powerUp (d : Driver) : Driver := Driver.apply (pat d.phase) d

/-- Power-down: all four lines low (R101). -/
def Driver.powerDown (d : Driver) : Driver := Driver.apply 0 d

/-- `now()`: the sample is the level at the clock input, and the clock trace gets `ClockRead(t)` (R36, R8). -/
def Driver.readClock (t : Micros) (d : Driver) : Driver := { d with trace := d.trace ++ [.clockRead t] }

/-- Load the remaining-steps counter (R65, R67, R110). -/
def Driver.load (count : Count) (d : Driver) : Driver := { d with remainingSteps := count }

/-- The output trace: the `Apply` values, oldest first (R8). -/
def Driver.outputTrace (d : Driver) : List Levels :=
  d.trace.filterMap fun e => match e with
    | .apply v => some v
    | .clockRead _ => none

/-- The clock trace: the samples read, oldest first (R8). -/
def Driver.clockTrace (d : Driver) : List Micros :=
  d.trace.filterMap fun e => match e with
    | .clockRead t => some t
    | .apply _ => none

/-- What the block drives onto the pins: `LINES` where LINE_OE is 1, and nothing where it is 0 (R19, R26; the level of
an undriven pin is not the block's, U15, log entry 10). -/
def State.pins (s : State) : Option Levels :=
  if s.lineOe then s.driver.map (·.lines) else none

/-- Construction, a function from a configuration to an instance or InvalidConfiguration (R135). The test comes before
any effect (R136); `CFG_SPR` is read as signed and `CFG_INTERVAL` as unsigned (R15, R16). -/
def construct (cfgSpr : Count) (cfgInterval lastReset : Micros) : Except Fault Driver :=
  if sext cfgSpr ≤ 0 ∨ cfgInterval = 0 then
    .error .invalidConfiguration
  else
    .ok { phase := 0, currentStep := 0, remainingSteps := 0, lastStepTimestamp := lastReset
          spr := cfgSpr, interval := cfgInterval, lines := 0, trace := [] }

/-- TAKING THE ONE EXCEPTION: a failed construction saves nothing and switches nothing; CFG_ERR becomes 1, LINE_OE 0,
and there is no instance (R120, R125). -/
def State.takeInvalidConfiguration (s : State) : State :=
  { s with driver := none, lineOe := false, cfgErr := true }

/-- THE WAY OUT OF IT, and every other construction that succeeds: the new instance stands, CFG_ERR is 0 and the lines
are in output mode (R126, R135). -/
def State.install (d : Driver) (s : State) : State :=
  { s with driver := some d, lineOe := true, cfgErr := false }

/-- The response port after a reset: none, or, where the reset cut a command short, a free value (R140, log entries 5
and 6). -/
def State.dropResponse (midCommand : Bool) (s : State) : State :=
  if midCommand then { s with rsp := Config.cutResponse s.draws, draws := s.draws + 1 } else { s with rsp := none }

/-- A command is answered: the instance as the command leaves it, and the response word (R50). -/
def State.complete (d : Driver) (response : Count) (s : State) : State :=
  { s with driver := some d, rsp := some response }

/-- A command acts on the instance; where there is none it is refused (R122). -/
def State.withDriver (s : State) (command : Driver → Host.Outcome State Fault Refusal) :
    Host.Outcome State Fault Refusal :=
  match s.driver with
  | some d => command d
  | none => .refused .notConstructed

end Sys2Proof.Machine
end

