-- ==== Sys2Proof/Machine/Move.lean ====
section
/-! DEFINITION. The direction controller, MOVE and MOVETO (spec/40_move_commands.md). -/

namespace Sys2Proof.Machine

/-- MOVE (R65): load the signed delta, power up, answer 0. No clock read. -/
def execMove (delta : Count) (s : State) : Host.Outcome State Fault Refusal :=
  s.withDriver fun d => .next (s.complete (d.load delta).powerUp 0)

/-- MOVETO (R67): load the shorter arc from `currentStep` to the target, power up, answer 0. A target at or above SPR
is refused (R70). -/
def execMoveTo (target : Count) (s : State) : Host.Outcome State Fault Refusal :=
  s.withDriver fun d =>
    if zext target ≥ zext d.spr then
      .refused .targetOutOfRange
    else
      let delta := shorterArc Config.tieForward (zext d.spr) (zext d.currentStep) (zext target)
      .next (s.complete (d.load (trunc Config.SW delta)).powerUp 0)

end Sys2Proof.Machine
end

