-- ==== Sys2Proof/Machine/Poll.lean ====
section
/-! DEFINITION. The step-interval timer and step engine, POLL (spec/41_poll_step_engine.md). -/

namespace Sys2Proof.Machine

/-- The forward step of a due POLL: forward transition, counter down by one, position up by one modulo SPR
(R84, R85). -/
def Driver.advance (d : Driver) : Driver :=
  { d.stepForward with
    remainingSteps := d.remainingSteps - 1
    currentStep := nextPosition d.spr d.currentStep }

/-- The reverse step of a due POLL: reverse transition, counter up by one, position down by one modulo SPR
(R84, R85). -/
def Driver.retreat (d : Driver) : Driver :=
  { d.stepReverse with
    remainingSteps := d.remainingSteps + 1
    currentStep := prevPosition d.spr d.currentStep }

/-- A due POLL at sample `t`: one step in the direction of the sign, then the timestamp takes the sample
(R84 to R86). -/
def Driver.takeStep (t : Micros) (d : Driver) : Driver :=
  { (if d.forward then d.advance else d.retreat) with lastStepTimestamp := t }

/-- Completion: a step that leaves `remainingSteps = 0` is followed by power-down in the same command (R87). -/
def Driver.finish (d : Driver) : Driver := if d.idle then d.powerDown else d

/-- The boolean of POLL as a response word: 1 for `true` and 0 for `false`, the value of `idle` at the end of the poll
(R50, R88). -/
def Driver.pollResult (d : Driver) : Count := if d.idle then 1 else 0

/-- POLL (R80): idle answers 1 and touches nothing (R81); else the clock is sampled once (R82); not due answers 0
(R83); due takes one step (R84 to R86), powers down at zero (R87) and answers whether the counter is zero (R88). -/
def execPoll (s : State) : Host.Outcome State Fault Refusal :=
  s.withDriver fun d =>
    if d.idle then
      .next (s.complete d 1)
    else if d.due s.now then
      let d' := ((d.readClock s.now).takeStep s.now).finish
      .next (s.complete d' d'.pollResult)
    else
      .next (s.complete (d.readClock s.now) 0)

end Sys2Proof.Machine
end

