-- ==== Sys2Proof/Machine/StopAccess.lean ====
section
/-! DEFINITION. STOP and the two accessors, RDPOS and RDREM (spec/43_stop_and_accessors.md). -/

namespace Sys2Proof.Machine

/-- STOP (R110): the counter is zeroed and all four lines go low; no step is taken; answer 0. -/
def execStop (s : State) : Host.Outcome State Fault Refusal :=
  s.withDriver fun d => .next (s.complete (d.load 0).powerDown 0)

/-- RDPOS (R112): answer `currentStep`; no side effect. -/
def execRdpos (s : State) : Host.Outcome State Fault Refusal :=
  s.withDriver fun d => .next (s.complete d d.currentStep)

/-- RDREM (R113): answer `remainingSteps` as stored, sign included; no side effect. -/
def execRdrem (s : State) : Host.Outcome State Fault Refusal :=
  s.withDriver fun d => .next (s.complete d d.remainingSteps)

end Sys2Proof.Machine
end

