-- ==== Sys2Proof/Machine/Dispatch.lean ====
section
/-! DEFINITION. The meaning of every command (spec/30_encoding.md R47), one arm per constructor of `Instr`. -/

namespace Sys2Proof.Machine

def exec (i : Instr) (s : State) : Host.Outcome State Fault Refusal :=
  match i with
  | .poll => Sys2Proof.Machine.execPoll s
  | .move delta => Sys2Proof.Machine.execMove delta s
  | .moveTo target => Sys2Proof.Machine.execMoveTo target s
  | .stop => Sys2Proof.Machine.execStop s
  | .rdpos => Sys2Proof.Machine.execRdpos s
  | .rdrem => Sys2Proof.Machine.execRdrem s

end Sys2Proof.Machine
end

