-- ==== Sys2Proof/Machine/Input.lean ====
section
/-! DEFINITION. What the block does with an input that is not a command it can decode (spec/20_memory.md R36,
spec/30_encoding.md R56, spec/60_exceptions.md R122, spec/70_reset_and_hazards.md R135, R140, R149). -/

namespace Sys2Proof.Machine

/-- The state once the input at the head of `inputs` has been taken. -/
def State.takeInput (rest : List HostInput) (s : State) : State := { s with inputs := rest }

/-- Nothing is presented: the block waits, and nothing but an input changes the state (R17, R133). -/
def waitForInput (s : State) : Host.Outcome State Fault Refusal := .next s

/-- A word the decoder rejects: refused, with no effect and no response (R56); without an instance every command word
is refused as such (R122). -/
def rejectWord (e : DecodeError) (s : State) : Host.Outcome State Fault Refusal :=
  s.withDriver fun _ => match e with
    | .reservedOpcode _ => .refused .reservedOpcode

/-- A second command before the first has completed is refused (R149); without an instance every command word is
refused as such (R122). DESIGN CHOICE (log entry 18, safe: the run is refused either way): where the first or the second
word is also a reserved opcode (R56) or an out-of-range MOVETO (R70), R57 gives no order among its reasons, and the
model names concurrentCommand. -/
def rejectOverlap (s : State) : Host.Outcome State Fault Refusal :=
  s.withDriver fun _ => .refused .concurrentCommand

/-- The clock input changes: the block does nothing about it (R36, R128). -/
def clockTicks (t : Micros) (s : State) : Host.Outcome State Fault Refusal := .next { s with now := t }

/-- Reset (R135, R140): a fresh construction from the configuration inputs, or the fault of a failed one, taken
(R120, R125). -/
def execReset (cfgSpr : Count) (cfgInterval lastReset : Micros) (midCommand : Bool) (s : State) :
    Host.Outcome State Fault Refusal :=
  match construct cfgSpr cfgInterval lastReset with
  | .ok d => .next ((s.dropResponse midCommand).install d)
  | .error .invalidConfiguration => .next (s.dropResponse midCommand).takeInvalidConfiguration

/-- The inputs with a command word presented first (log entry 12). -/
def presentWord (w : Nat) (inputs : List HostInput) : List HostInput :=
  .command (CommandWord.ofBits w) :: inputs

end Sys2Proof.Machine
end

