-- ==== Sys2Proof/Machine/Step.lean ====
section
/-! DEFINITION. One step: the block takes the input presented next and completes it (spec/00_scope.md R5,
spec/20_memory.md R40). There is no program counter and no fetch (spec/10_state.md R17). -/

namespace Sys2Proof.Machine

/-- The block completes one input before it takes the next (R40). -/
def step (s : State) : Host.Outcome State Fault Refusal :=
  match s.inputs with
  | [] => waitForInput s
  | .command w :: rest =>
    match decode w with
    | .ok i => exec i (s.takeInput rest)
    | .error e => rejectWord e (s.takeInput rest)
  | .overlap _ _ :: rest => rejectOverlap (s.takeInput rest)
  | .clock t :: rest => clockTicks t (s.takeInput rest)
  | .reset cfgSpr cfgInterval lastReset midCommand :: rest =>
    execReset cfgSpr cfgInterval lastReset midCommand (s.takeInput rest)

/-- `s` with the host presenting this command word next (log entry 12): the inputs already presented follow it. -/
def State.withFetchWord (s : State) (_nbits w : Nat) : State :=
  { s with inputs := presentWord w s.inputs }

end Sys2Proof.Machine
end

