-- ==== Sys2Proof/WellFormed.lean ====
section
/-! DEFINITION. Which commands an assembler may write (spec/30_encoding.md R48, R49, R59).

The check does not stand in the way of decoding or running: a command that fails it decodes, and the block refuses
it by name (R70). -/

namespace Sys2Proof

/-- Some legal configuration accepts the command. Every bit pattern is a legal delta (R48); a legal MOVETO target
always has its top bit clear, since SPR is at most 2^(SW-1) - 1 (R49). -/
def Instr.wf : Instr → Bool
  | .poll => true
  | .move _ => true
  | .moveTo target => target.toNat < 2 ^ (Config.SW - 1)
  | .stop => true
  | .rdpos => true
  | .rdrem => true

/-- The exact operand range under the configuration `spr` (R59: "`MOVETO p`, p from 0 to SPR - 1"). -/
def Instr.wfFor (spr : Count) : Instr → Bool
  | .poll => true
  | .move _ => true
  | .moveTo target => target.toNat < spr.toNat
  | .stop => true
  | .rdpos => true
  | .rdrem => true

end Sys2Proof
end

