-- ==== Sys2Proof/Safety.lean ====
section
/-! DEFINITION. What counts as a safe state and a safe run, in the terms claims use: the invariants of
spec/10_state.md R23, the output state machine of spec/42_phase_output_sequencer.md R102, and the host's duties of
spec/70_reset_and_hazards.md R141, R149, R150. Nothing here is read by the step. -/

namespace Sys2Proof.Machine

/-- A legal configuration of an instance (R15, R16; R23 (d)). -/
abbrev Driver.LegalConfig (d : Driver) : Prop :=
  0 < d.spr.toNat ∧ d.spr.toNat < 2 ^ (Config.SW - 1) ∧ 0 < d.interval.toNat

/-- R23 (b), (c) and (f) of an instance; (a) holds by the width of `phase`. -/
abbrev Driver.InRange (d : Driver) : Prop :=
  d.currentStep.toNat < d.spr.toNat ∧ (d.lines = 0 ∨ d.lines = pat d.phase) ∧
    (d.remainingSteps ≠ 0 → d.lines = pat d.phase)

/-- `LINES` is what the last `Apply` wrote, or its reset value 0b0000 if there has been none (R18). -/
abbrev Driver.LinesFollowTrace (d : Driver) : Prop := d.lines = d.outputTrace.getLast?.getD 0

/-- What R23 and R27 say of an instance that may be absent: present with LINE_OE = 1 and CFG_ERR = 0, or absent with
LINE_OE = 0. -/
abbrev State.Inv (s : State) : Prop :=
  (∀ d ∈ s.driver, s.lineOe = true ∧ s.cfgErr = false ∧ d.LegalConfig ∧ d.InRange ∧ d.LinesFollowTrace) ∧
    (s.driver = none → s.lineOe = false)

/-- The three states of the outputs (R102). -/
inductive OutputState where
  /-- LINE_OE = 0: the block does not drive the lines. -/
  | undriven
  /-- LINE_OE = 1 and all four lines low. -/
  | off
  /-- LINE_OE = 1 and the lines hold the pattern of the stored phase. -/
  | on (p : Phase)
deriving DecidableEq, Repr

/-- The state of the outputs (R102). -/
def State.outputs (s : State) : OutputState :=
  match s.driver with
  | some d => if s.lineOe then (if d.lines = 0 then .off else .on d.phase) else .undriven
  | none => .undriven

/-- The events of R102's table. -/
inductive OutputCause where
  /-- Construction succeeds. -/
  | constructed
  /-- Construction fails. -/
  | constructionFailed
  /-- MOVE, or MOVETO with a target in range. -/
  | move
  /-- POLL idle or not due, RDPOS, RDREM. -/
  | quiet
  /-- POLL due, in the direction given, with more steps left or on the last step. -/
  | step (forward last : Bool)
  /-- STOP. -/
  | stop
deriving DecidableEq, Repr

/-- Which event of R102's table a command is on the instance `d` with the clock input at `t`. -/
def Driver.outputCause (t : Micros) (d : Driver) : Instr → OutputCause
  | .poll =>
    if d.remainingSteps.toInt = 0 ∨ (elapsed t d.lastStepTimestamp).toNat < d.interval.toNat then .quiet
    else .step (0 < d.remainingSteps.toInt) (d.remainingSteps.toInt.natAbs = 1)
  | .move _ => .move
  | .moveTo _ => .move
  | .stop => .stop
  | .rdpos => .quiet
  | .rdrem => .quiet

/-- The rows of R102's table: the event, from, to, and the `Apply` values of the command in order. Construction
records none (R138). -/
inductive OutputRow : OutputCause → OutputState → OutputState → List Levels → Prop where
  /-- UNDRIVEN, construction succeeds; any state, reset, "as construction". -/
  | construct (o : OutputState) : OutputRow .constructed o .off []
  /-- UNDRIVEN, construction fails; any state, reset, "as construction". -/
  | constructFails (o : OutputState) : OutputRow .constructionFailed o .undriven []
  /-- OFF, MOVE or MOVETO. -/
  | powerUp (p : Phase) : OutputRow .move .off (.on p) [pat p]
  /-- OFF, POLL or RDPOS or RDREM. -/
  | stayOff : OutputRow .quiet .off .off []
  /-- OFF, STOP. -/
  | stopOff : OutputRow .stop .off .off [0]
  /-- ON(p), MOVE or MOVETO: the same pattern again. -/
  | reapply (p : Phase) : OutputRow .move (.on p) (.on p) [pat p]
  /-- ON(p), POLL idle or not due, RDPOS, RDREM. -/
  | stayOn (p : Phase) : OutputRow .quiet (.on p) (.on p) []
  /-- ON(p), POLL due, forward, more steps left. -/
  | forward (p : Phase) : OutputRow (.step true false) (.on p) (.on (p + 1)) [pat (p + 1)]
  /-- ON(p), POLL due, reverse, more steps left. -/
  | reverse (p : Phase) : OutputRow (.step false false) (.on p) (.on (p - 1)) [pat (p - 1)]
  /-- ON(p), POLL due, last step forward. -/
  | lastForward (p : Phase) : OutputRow (.step true true) (.on p) .off [pat (p + 1), 0]
  /-- ON(p), POLL due, last step reverse. -/
  | lastReverse (p : Phase) : OutputRow (.step false true) (.on p) .off [pat (p - 1), 0]
  /-- ON(p), STOP. -/
  | stopOn (p : Phase) : OutputRow .stop (.on p) .off [0]

/-- The input does not reset the block. -/
def HostInput.keepsInstance : HostInput → Bool
  | .command _ => true
  | .overlap _ _ => true
  | .clock _ => true
  | .reset _ _ _ _ => false

/-- The host's duties towards an instance of `spr` steps (R141, R149, R150): command words that decode, MOVETO targets
in range, one command at a time. A reset is allowed at any time, with any configuration (R140, R120). -/
def HostInput.allowed (spr : Count) : HostInput → Bool
  | .command w => match decode w with
    | .ok i => i.wfFor spr
    | .error _ => false
  | .overlap _ _ => false
  | .clock _ => true
  | .reset _ _ _ _ => true

/-- A run of steps in which the instance stays and takes no motor step: no reset is taken and `phase` stands still. -/
inductive QuietRun : State → State → Prop where
  | refl (s : State) : QuietRun s s
  | tail {s t u : State} {d e : Driver} (run : QuietRun s t) (hd : t.driver = some d)
      (keeps : ∀ i ∈ t.inputs.head?, i.keepsInstance = true) (taken : step t = .next u)
      (he : u.driver = some e) (still : e.phase = d.phase) : QuietRun s u

/-- The inputs of a host that polls once at each clock sample: the clock takes the sample, then POLL is presented. -/
def pollAt : List Micros → List HostInput
  | [] => []
  | t :: ts => .clock t :: .command (encode .poll) :: pollAt ts

/-- Every sample finds a step due when the sample before it, and first `last`, was stored (R91: "each separated by ≥
`stepInterval`"). -/
def Spaced (interval last : Micros) : List Micros → Prop
  | [] => True
  | t :: ts => interval ≤ elapsed t last ∧ Spaced interval t ts

end Sys2Proof.Machine
end

