-- ==== Sys2Proof/Certificates/Slice0/Obligations.lean ====
section
/-! DEFINITION. The statements for the provers, from the numbered rules of spec/. The block has no memory (R30), so no
statement speaks of a byte of memory; its state is the instance, the two status bits, the response and the inputs. -/

open Sys2Proof Sys2Proof.Machine

/-! ### Table, lines and internal operations -/

/-- R54: the eight entries of the phase table, and that 0x0 is none of them. -/
def Obligations.PhaseTableHoldsTheEightPatterns : Prop :=
  [pat 0, pat 1, pat 2, pat 3, pat 4, pat 5, pat 6, pat 7] = [0x9, 0x1, 0x3, 0x2, 0x6, 0x4, 0xC, 0x8] ∧
    ∀ p, pat p ≠ 0x0

/-- R105: between neighbouring phases exactly one line changes, and which. -/
def Obligations.OneLineChangesBetweenNeighbours : Prop :=
  ∀ (p : Phase) (id : LineId), lineLevel (pat (p + 1)) id ≠ lineLevel (pat p) id ↔
    [LineId.a, .c, .d, .b, .c, .a, .b, .d][p.toNat]? = some id

/-- R34, D10: the four `setLine` calls of one application give the same levels in every order, whatever stood there. -/
def Obligations.SetLineOrderDoesNotMatter : Prop :=
  ∀ order : List LineId, order.Perm [.a, .b, .c, .d] → ∀ v old : Levels,
    order.foldl (fun levels id => setLine id (lineLevel v id) levels) old = v

/-- R97: `apply(v)` leaves `LINES` = v whatever the levels were, records `Apply(v)`, and does nothing else. -/
def Obligations.ApplyWritesAllFourLines : Prop :=
  ∀ (d : Driver) (v : Levels), d.apply v = { d with lines := v, trace := d.trace ++ [.apply v] }

/-- R98, R99: the transitions move `phase` by one modulo 8 and apply the NEW phase's pattern; reverse undoes forward. -/
def Obligations.PhaseTransitionsAreCyclic : Prop :=
  ∀ d : Driver,
    (∃ p : Phase, p.toNat = (d.phase.toNat + 1) % 8 ∧
      d.stepForward = { d with phase := p, lines := pat p, trace := d.trace ++ [.apply (pat p)] }) ∧
    (∃ p : Phase, p.toNat = (d.phase.toNat + 7) % 8 ∧
      d.stepReverse = { d with phase := p, lines := pat p, trace := d.trace ++ [.apply (pat p)] }) ∧
    d.stepForward.stepReverse.phase = d.phase ∧ d.stepForward.stepReverse.lines = pat d.phase

/-! ### Encoding -/

/-- R46, R47, R55, R59: decoding the canonical word of a command gives the command with every operand, and a word that
decodes is the canonical word but for operand bits the command ignores. -/
def Obligations.DecodeAndEncodeAgree : Prop :=
  (∀ i : Instr, decode (encode i) = .ok i) ∧
  (∀ (w : CommandWord) (i : Instr), decode w = .ok i →
    encode i = w ∨ (i ∈ [Instr.poll, .stop, .rdpos, .rdrem] ∧ encode i = w >>> Config.SW <<< Config.SW))

/-- R47 with R55, R56: the opcode map in the table's own match and mask (the words of SW = 16), on all words; opcodes 6 to 15 are rejected by name. -/
def Obligations.OpcodeMapMatchesTheTable : Prop :=
  ∀ w : CommandWord,
    (w &&& 0xF0000 = 0x00000 → decode w = .ok .poll) ∧
    (w &&& 0xF0000 = 0x10000 → decode w = .ok (.move (BitVec.ofNat Config.SW w.toNat))) ∧
    (w &&& 0xF0000 = 0x20000 → decode w = .ok (.moveTo (BitVec.ofNat Config.SW w.toNat))) ∧
    (w &&& 0xF0000 = 0x30000 → decode w = .ok .stop) ∧
    (w &&& 0xF0000 = 0x40000 → decode w = .ok .rdpos) ∧
    (w &&& 0xF0000 = 0x50000 → decode w = .ok .rdrem) ∧
    (0x60000 ≤ w.toNat → decode w = .error (.reservedOpcode (BitVec.ofNat 4 (w.toNat / 0x10000))))

/-- Words of spec/95_test_vectors.md section 2.1 (SW = 16) decode to the commands they stand for. -/
def Obligations.SpecWordsDecode : Prop :=
  decode 0x00000 = .ok .poll ∧ decode 0x0ABCD = .ok .poll ∧ decode 0x1FFFF = .ok (.move (-1)) ∧
    decode 0x18000 = .ok (.move (-32768)) ∧ decode 0x20FFF = .ok (.moveTo 4095) ∧ decode 0x30000 = .ok .stop ∧
    decode 0x40000 = .ok .rdpos ∧ decode 0x50000 = .ok .rdrem ∧ decode 0x7FFFF = .error (.reservedOpcode 7)

/-! ### The step -/

/-- R40: when the word presented decodes, the step is the command's meaning on the state with that input taken. -/
def Obligations.StepRunsTheDecodedCommand : Prop :=
  ∀ (s : State) (w : CommandWord) (i : Instr) (rest : List HostInput),
    s.inputs = .command w :: rest → decode w = .ok i → step s = exec i { s with inputs := rest }

/-- A word of the opcode table that decodes runs as the very next step, on the state it was placed in (log entry 12). -/
def Obligations.TableWordRunsNext : Prop :=
  ∀ (s : State) (nbits w : Nat) (i : Instr),
    decodeTableWord nbits w = some i → step (s.withFetchWord nbits w) = exec i s

/-- R133, R128: a step with nothing presented changes nothing, and a clock change reaches the clock input alone. -/
def Obligations.OnlyInputsChangeTheState : Prop :=
  (∀ s : State, s.inputs = [] → step s = .next s) ∧
  (∀ (s : State) (t : Micros) (rest : List HostInput), s.inputs = .clock t :: rest →
    step s = .next { s with now := t, inputs := rest })

/-! ### Construction -/

/-- R135: reset samples the configuration and either constructs, every register at its reset value and
`lastStepTimestamp` at whatever LAST_RESET this construction has, or fails with CFG_ERR = 1, LINE_OE = 0 and no
instance. The response afterwards is not the rule's. -/
def Obligations.ResetConstructsOrFails : Prop :=
  ∀ (s : State) (cfgSpr : Count) (cfgInterval lastReset : Micros) (midCommand : Bool) (rest : List HostInput),
    s.inputs = .reset cfgSpr cfgInterval lastReset midCommand :: rest →
    ∃ (r : Option Count) (n : Nat), step s = .next
      (if cfgSpr.toInt ≤ 0 ∨ cfgInterval.toNat = 0 then
        { s with driver := none, lineOe := false, cfgErr := true, inputs := rest, rsp := r, draws := n }
      else
        { s with
          driver := some
            { phase := 0, currentStep := 0, remainingSteps := 0, lastStepTimestamp := lastReset
              spr := cfgSpr, interval := cfgInterval, lines := 0, trace := [] }
          lineOe := true, cfgErr := false, inputs := rest, rsp := r, draws := n })

/-- The model's choice (log entry 5): a reset that cuts no command short leaves no response standing. -/
def Obligations.ResetBetweenCommandsLeavesNoResponse : Prop :=
  ∀ (s t : State) (cfgSpr : Count) (cfgInterval lastReset : Micros) (rest : List HostInput),
    s.inputs = .reset cfgSpr cfgInterval lastReset false :: rest → step s = .next t →
    t.rsp = none ∧ t.draws = s.draws

/-- The model's choice (log entries 2, 3): `State.reset` is the construction from SPR = 4096, INTERVAL = 1000 and
LAST_RESET = 0. -/
def Obligations.ResetStateIsAConstruction : Prop :=
  ∃ d, construct 4096 1000 0 = .ok d ∧
    State.reset = { driver := some d, lineOe := true, cfgErr := false, rsp := none, now := 0, inputs := [], draws := 0 }

/-! ### Invariants -/

/-- R23, R27: the invariant holds right after reset. -/
def Obligations.ResetStateSatisfiesInvariant : Prop := State.reset.Inv

/-- R23: at every command boundary the position is below SPR, the lines are low or hold the pattern of the phase, a
moving block holds it, LINE_OE = 1 and CFG_ERR = 0, and SPR and INTERVAL are as sampled at construction. With it R18:
`LINES` is what the last `Apply` wrote, or its reset value. -/
def Obligations.EveryStepKeepsTheInvariant : Prop :=
  ∀ s t : State, s.Inv → step s = .next t →
    t.Inv ∧ ((∀ i ∈ s.inputs.head?, i.keepsInstance = true) → ∀ d, s.driver = some d →
      ∃ e, t.driver = some e ∧ e.spr = d.spr ∧ e.interval = d.interval)

/-- R22: a moving block is never de-energized. -/
def Obligations.MovingImpliesEnergized : Prop :=
  ∀ (s : State) (d : Driver), s.Inv → s.driver = some d → d.idle = false → d.energized = true

/-- R19, R26 (b): the pins carry `LINES` while there is an instance, and nothing is driven while there is none. -/
def Obligations.PinsCarryLinesExactlyWhenConstructed : Prop :=
  ∀ s : State, s.Inv → (∀ d, s.driver = some d → s.pins = some d.lines) ∧ (s.driver = none → s.pins = none)

/-! ### Where a command is refused -/

/-- R57: a step refuses in the four places, on an instance or without one, and nowhere else. Which reason it names is
the next statement's. -/
def Obligations.RefusedOnlyInTheFourPlaces : Prop :=
  ∀ s : State, (∃ r, step s = .refused r) ↔
    (∃ (w : CommandWord) (rest : List HostInput), s.inputs = .command w :: rest ∧
      (6 * 2 ^ Config.SW ≤ w.toNat ∨ s.driver = none ∨
       ∃ d, s.driver = some d ∧ 2 * 2 ^ Config.SW + d.spr.toNat ≤ w.toNat ∧ w.toNat < 3 * 2 ^ Config.SW)) ∨
    (∃ (v w : CommandWord) (rest : List HostInput), s.inputs = .overlap v w :: rest)

/-- R57 with R56, R70, R122, R149: the reason a step names in each of the four places. Where a word of an overlap is
itself reserved or out of range, the spec gives no order among the reasons, and that the model names concurrentCommand
is its own choice (log entry 18). -/
def Obligations.RefusalsAreExactlyTheFour : Prop :=
  ∀ (s : State) (r : Refusal), step s = .refused r ↔
    (∃ (w : CommandWord) (rest : List HostInput), s.inputs = .command w :: rest ∧
      ((s.driver = none ∧ r = .notConstructed) ∨
       (∃ d, s.driver = some d ∧ 6 * 2 ^ Config.SW ≤ w.toNat ∧ r = .reservedOpcode) ∨
       (∃ d, s.driver = some d ∧ 2 * 2 ^ Config.SW + d.spr.toNat ≤ w.toNat ∧ w.toNat < 3 * 2 ^ Config.SW ∧
         r = .targetOutOfRange))) ∨
    (∃ (v w : CommandWord) (rest : List HostInput), s.inputs = .overlap v w :: rest ∧
      ((s.driver = none ∧ r = .notConstructed) ∨ (∃ d, s.driver = some d ∧ r = .concurrentCommand)))

/-- R122: without an instance every command, and every command word, is refused. -/
def Obligations.UnconstructedBlockRefusesEveryCommand : Prop :=
  ∀ s : State, s.driver = none →
    (∀ i : Instr, exec i s = .refused .notConstructed) ∧
    (∀ (w : CommandWord) (rest : List HostInput), s.inputs = .command w :: rest → step s = .refused .notConstructed)

/-- R70: a target at or above SPR is refused. -/
def Obligations.TargetOutOfRangeIsRefused : Prop :=
  ∀ (s : State) (d : Driver) (target : Count), s.driver = some d → d.spr.toNat ≤ target.toNat →
    exec (.moveTo target) s = .refused .targetOutOfRange

/-- R49: under every legal configuration a target that is not well formed (top bit set) is refused. -/
def Obligations.IllFormedTargetIsAlwaysRefused : Prop :=
  ∀ (s : State) (d : Driver) (target : Count), s.driver = some d → d.LegalConfig →
    (Instr.moveTo target).wf = false → exec (.moveTo target) s = .refused .targetOutOfRange

/-- R149: a second command before the first has completed is refused as such. That this holds also where one of the two
words is itself reserved or out of range is the model's choice (log entry 18). -/
def Obligations.ConcurrentCommandIsRefused : Prop :=
  ∀ (s : State) (d : Driver) (v w : CommandWord) (rest : List HostInput), s.driver = some d →
    s.inputs = .overlap v w :: rest → step s = .refused .concurrentCommand

/-- R121, R126, R130: no step ends in a fault; the one fault there is, a reset takes as a next state. -/
def Obligations.NoStepFaults : Prop := ∀ (s : State) (e : Fault), step s ≠ .fault e

/-- R150, R141: while the host keeps its duties, no step stops, and the invariant goes on holding. -/
def Obligations.DutifulHostIsNeverRefused : Prop :=
  ∀ (s : State) (d : Driver), s.Inv → s.driver = some d →
    (∀ i ∈ s.inputs.head?, i.allowed d.spr = true) → ∃ t, step s = .next t ∧ t.Inv

/-- R127: every command with its operand in range completes on every constructed block, leaves the block constructed,
and produces one response (R45). -/
def Obligations.EveryCommandCompletes : Prop :=
  ∀ (s : State) (d : Driver) (i : Instr), s.driver = some d → i.wfFor d.spr = true →
    ∃ (t : State) (e : Driver) (r : Count), exec i s = .next t ∧ t.driver = some e ∧ t.rsp = some r

/-! ### MOVE and MOVETO -/

/-- R65: MOVE sets the counter to the delta, powers up at the unchanged phase, answers 0, and changes nothing else; it
decodes from opcode 1, and is refused on an unconstructed block. -/
def Obligations.MoveLoadsDeltaAndPowersUp : Prop :=
  ∀ (s : State) (delta : Count),
    decode ((1 : Opcode) ++ delta) = .ok (.move delta) ∧
    (s.driver = none → exec (.move delta) s = .refused .notConstructed) ∧
    (∀ d, s.driver = some d → exec (.move delta) s = .next
      { s with
        driver := some
          { d with
            remainingSteps := delta, lines := pat d.phase, trace := d.trace ++ [.apply (pat d.phase)] }
        rsp := some 0 })

/-- R67: MOVETO loads the shorter arc, computed in unbounded integers as the rule's pseudocode gives it, powers up,
answers 0, and changes nothing else; a target at or above SPR is refused; it decodes from opcode 2. -/
def Obligations.MoveToLoadsShorterArc : Prop :=
  ∀ (s : State) (d : Driver) (target : Count), s.driver = some d →
    decode ((2 : Opcode) ++ target) = .ok (.moveTo target) ∧
    exec (.moveTo target) s =
      (let spr : Int := d.spr.toNat
       let delta : Int := (target.toNat : Int) - d.currentStep.toNat
       let arc : Int :=
         if 2 * delta.natAbs > spr then (if delta > 0 then delta - spr else delta + spr)
         else if 2 * delta.natAbs = spr then spr / 2 else delta
       if (target.toNat : Int) ≥ spr then .refused .targetOutOfRange
       else .next
        { s with
          driver := some
            { d with
              remainingSteps := BitVec.ofInt Config.SW arc, lines := pat d.phase
              trace := d.trace ++ [.apply (pat d.phase)] }
          rsp := some 0 })

/-- R71, R72: the count MOVETO loads is at most half a revolution and, walked from `currentStep` modulo SPR, reaches the
target; nothing wrapped on the way into SW bits. -/
def Obligations.MoveToCountReachesTheTarget : Prop :=
  ∀ (s : State) (d : Driver) (target : Count), s.driver = some d → d.LegalConfig →
    d.currentStep.toNat < d.spr.toNat → target.toNat < d.spr.toNat →
    ∃ (t : State) (e : Driver), exec (.moveTo target) s = .next t ∧ t.driver = some e ∧
      2 * e.remainingSteps.toInt.natAbs ≤ d.spr.toNat ∧
      ((d.currentStep.toNat : Int) + e.remainingSteps.toInt) % d.spr.toNat = target.toNat

/-- R69: at exactly half a revolution the move is forward, whichever of target and position is larger, and it reaches
the target. -/
def Obligations.HalfRevolutionGoesForward : Prop :=
  ∀ (s : State) (d : Driver) (target : Count), s.driver = some d → d.LegalConfig →
    d.currentStep.toNat < d.spr.toNat → target.toNat < d.spr.toNat →
    2 * ((target.toNat : Int) - d.currentStep.toNat).natAbs = d.spr.toNat →
    ∃ (t : State) (e : Driver), exec (.moveTo target) s = .next t ∧ t.driver = some e ∧
      e.remainingSteps.toInt = (d.spr.toNat / 2 : Nat) ∧
      (d.currentStep.toNat + d.spr.toNat / 2) % d.spr.toNat = target.toNat

/-! ### POLL -/

/-- R81: an idle POLL answers 1 and touches nothing: no register, no line, no clock read. -/
def Obligations.IdlePollTouchesNothing : Prop :=
  ∀ (s : State) (d : Driver), s.driver = some d → d.remainingSteps = 0 →
    exec .poll s = .next { s with rsp := some 1 }

/-- R83: a POLL whose elapsed time is below INTERVAL answers 0; the one event is the clock read. -/
def Obligations.EarlyPollOnlyReadsTheClock : Prop :=
  ∀ (s : State) (d : Driver), s.driver = some d → d.remainingSteps ≠ 0 →
    (s.now.toNat + 2 ^ Config.TW - d.lastStepTimestamp.toNat) % 2 ^ Config.TW < d.interval.toNat →
    exec .poll s = .next
      { s with driver := some { d with trace := d.trace ++ [.clockRead s.now] }, rsp := some 0 }

/-- R80, R84, R86, R87 with R41: a due POLL takes exactly one step in the direction of the sign, the counter moves one
toward zero without overflow, the sample is stored, and a step that reaches zero is followed by power-down and answers
1. The clock read comes first, then the new phase's pattern, then all-low. -/
def Obligations.DuePollTakesOneStep : Prop :=
  ∀ (s : State) (d : Driver), s.driver = some d → d.remainingSteps ≠ 0 → 0 < d.spr.toNat →
    d.interval.toNat ≤ (s.now.toNat + 2 ^ Config.TW - d.lastStepTimestamp.toNat) % 2 ^ Config.TW →
    ∃ (p : Phase) (n : Count),
      p = (if 0 < d.remainingSteps.toInt then d.phase + 1 else d.phase - 1) ∧
      n.toInt = (if 0 < d.remainingSteps.toInt then d.remainingSteps.toInt - 1 else d.remainingSteps.toInt + 1) ∧
      exec .poll s = .next
        { s with
          driver := some
            { d with
              phase := p
              remainingSteps := n
              currentStep := BitVec.ofInt Config.SW
                ((d.currentStep.toNat + (if 0 < d.remainingSteps.toInt then 1 else -1)) % (d.spr.toNat : Int))
              lastStepTimestamp := s.now
              lines := if n = 0 then 0 else pat p
              trace := d.trace ++ [.clockRead s.now, .apply (pat p)] ++ (if n = 0 then [.apply 0] else []) }
          rsp := some (if n = 0 then 1 else 0) }

/-- R85: the position after a due POLL, by its cases, with the phase one on in the same direction; with SPR = 1 the
position stays 0. -/
def Obligations.DuePollMovesThePosition : Prop :=
  ∀ (s : State) (d : Driver), s.driver = some d → d.remainingSteps ≠ 0 → d.currentStep.toNat < d.spr.toNat →
    d.interval.toNat ≤ (s.now.toNat + 2 ^ Config.TW - d.lastStepTimestamp.toNat) % 2 ^ Config.TW →
    ∃ (t : State) (e : Driver), exec .poll s = .next t ∧ t.driver = some e ∧
      e.currentStep.toNat =
        (if 0 < d.remainingSteps.toInt then
          (if d.currentStep.toNat + 1 = d.spr.toNat then 0 else d.currentStep.toNat + 1)
        else (if d.currentStep.toNat = 0 then d.spr.toNat - 1 else d.currentStep.toNat - 1)) ∧
      e.phase.toNat = (d.phase.toNat + (if 0 < d.remainingSteps.toInt then 1 else 7)) % 8

/-- R88: in every case POLL answers whether the counter is zero at the end of the command. -/
def Obligations.PollAnswersWhetherIdle : Prop :=
  ∀ (s : State) (d : Driver), s.driver = some d →
    ∃ (t : State) (e : Driver), exec .poll s = .next t ∧ t.driver = some e ∧
      t.rsp = some (if e.remainingSteps = 0 then 1 else 0)

/-! ### STOP, RDPOS, RDREM -/

/-- R110: STOP zeroes the counter and de-energizes whatever the motion state, answers 0, and changes nothing else; it
decodes from opcode 3, and is refused on an unconstructed block. -/
def Obligations.StopHaltsAndDeenergizes : Prop :=
  ∀ (s : State) (arg : Count),
    decode ((3 : Opcode) ++ arg) = .ok .stop ∧
    (s.driver = none → exec .stop s = .refused .notConstructed) ∧
    (∀ d, s.driver = some d → exec .stop s = .next
      { s with
        driver := some { d with remainingSteps := 0, lines := 0, trace := d.trace ++ [.apply 0] }
        rsp := some 0 })

/-- R112: RDPOS answers `currentStep`, which is below SPR at every command boundary, and changes nothing else; it
decodes from opcode 4, and is refused on an unconstructed block. -/
def Obligations.RdposAnswersThePosition : Prop :=
  ∀ (s : State) (arg : Count),
    decode ((4 : Opcode) ++ arg) = .ok .rdpos ∧
    (s.driver = none → exec .rdpos s = .refused .notConstructed) ∧
    (∀ d, s.driver = some d → exec .rdpos s = .next { s with rsp := some d.currentStep } ∧
      (s.Inv → d.currentStep.toNat < d.spr.toNat))

/-- R113: RDREM answers the counter as stored, sign included, and changes nothing else; it decodes from opcode 5, and is
refused on an unconstructed block. -/
def Obligations.RdremAnswersTheSignedCount : Prop :=
  ∀ (s : State) (arg : Count),
    decode ((5 : Opcode) ++ arg) = .ok .rdrem ∧
    (s.driver = none → exec .rdrem s = .refused .notConstructed) ∧
    (∀ d, s.driver = some d →
      ∃ r : Count, exec .rdrem s = .next { s with rsp := some r } ∧ r.toInt = d.remainingSteps.toInt)

/-! ### Frames -/

/-- R24: MOVE, MOVETO and STOP write the counter, the lines, one `Apply` event and the response, and nothing else. The
block has no memory. -/
def Obligations.FrameOfMoveMovetoStop : Prop :=
  ∀ (s t : State) (d : Driver) (i : Instr), (∃ n, i = .move n ∨ i = .moveTo n ∨ i = .stop) →
    s.driver = some d → exec i s = .next t →
    ∃ e, t.driver = some e ∧ e.phase = d.phase ∧ e.currentStep = d.currentStep ∧
      e.lastStepTimestamp = d.lastStepTimestamp ∧ e.spr = d.spr ∧ e.interval = d.interval ∧
      (∃ v, e.trace = d.trace ++ [.apply v]) ∧ t.lineOe = s.lineOe ∧ t.cfgErr = s.cfgErr ∧ t.now = s.now ∧
      t.inputs = s.inputs ∧ t.draws = s.draws

/-- R24: POLL writes phase, lines, counter, position and timestamp (only when it takes a step), events and the response,
and nothing else; a POLL that takes no step leaves every register. The block has no memory. -/
def Obligations.FrameOfPoll : Prop :=
  ∀ (s t : State) (d : Driver), s.driver = some d → exec .poll s = .next t →
    ∃ e, t.driver = some e ∧ e.spr = d.spr ∧ e.interval = d.interval ∧
      (∃ events, e.trace = d.trace ++ events) ∧
      ((d.idle = true ∨ d.due s.now = false) → e = { d with trace := e.trace }) ∧
      t.lineOe = s.lineOe ∧ t.cfgErr = s.cfgErr ∧ t.now = s.now ∧ t.inputs = s.inputs ∧ t.draws = s.draws

/-- R24, R112, R113: RDPOS and RDREM write the response and nothing else. The block has no memory. -/
def Obligations.FrameOfAccessors : Prop :=
  ∀ (s t : State) (i : Instr), i = .rdpos ∨ i = .rdrem → exec i s = .next t → t = { s with rsp := t.rsp }

/-- R11, R12, R14: `phase`, `currentStep` and `lastStepTimestamp` are written only by a POLL that takes a step, and the
timestamp then is the sample (R86). -/
def Obligations.OnlyADuePollStepsTheMotor : Prop :=
  ∀ (s t : State) (d e : Driver) (i : Instr), s.driver = some d → t.driver = some e → exec i s = .next t →
    (e.phase ≠ d.phase ∨ e.currentStep ≠ d.currentStep ∨ e.lastStepTimestamp ≠ d.lastStepTimestamp) →
    i = .poll ∧ d.remainingSteps ≠ 0 ∧
      d.interval.toNat ≤ (s.now.toNat + 2 ^ Config.TW - d.lastStepTimestamp.toNat) % 2 ^ Config.TW ∧ e.lastStepTimestamp = s.now

/-- R137, R19, R120: no input but a reset changes SPR, INTERVAL, LINE_OE or CFG_ERR, or makes or unmakes an instance. -/
def Obligations.ConfigurationIsFixedForLife : Prop :=
  ∀ s t : State, (∀ i ∈ s.inputs.head?, i.keepsInstance = true) → step s = .next t →
    t.lineOe = s.lineOe ∧ t.cfgErr = s.cfgErr ∧
      t.driver.map (fun e => (e.spr, e.interval)) = s.driver.map (fun d => (d.spr, d.interval))

/-- R100, R111 case 4: after STOP the next MOVE powers up at the pattern of the phase kept through the power-down. -/
def Obligations.PowerUpAfterStopRestoresThePhase : Prop :=
  ∀ (s t : State) (d : Driver) (delta : Count), s.driver = some d → exec .stop s = .next t →
    ∃ (u : State) (e : Driver), exec (.move delta) t = .next u ∧ u.driver = some e ∧
      e.phase = d.phase ∧ e.lines = pat d.phase ∧ e.lastStepTimestamp = d.lastStepTimestamp

/-! ### Laws of the timer and the sequencer -/

/-- R90, at every clock width: `k` microseconds after the sample `last`, elapsed reads `k` modulo 2^TW whether or not the
clock wrapped, so a step found due is never early. -/
def Obligations.ElapsedSurvivesTheClockWrap : Prop :=
  ∀ (width k : Nat) (last interval : BitVec width),
    (elapsed (last + BitVec.ofNat width k) last).toNat = k % 2 ^ width ∧
    (interval ≤ elapsed (last + BitVec.ofNat width k) last → interval.toNat ≤ k)

/-- R85, R12, at every count width: below SPR, forward goes one up and from SPR - 1 to 0, reverse goes one down and from
0 to SPR - 1, and reverse undoes forward. -/
def Obligations.PositionsMoveModuloSprAtEveryWidth : Prop :=
  ∀ (width : Nat) (spr current : BitVec width), current.toNat < spr.toNat →
    (nextPosition spr current).toNat = (if current.toNat + 1 = spr.toNat then 0 else current.toNat + 1) ∧
    (prevPosition spr current).toNat = (if current.toNat = 0 then spr.toNat - 1 else current.toNat - 1) ∧
    prevPosition spr (nextPosition spr current) = current

/-- R72, R68, R71, at every count width: for a legal SPR, the shorter arc from a position to a target, whichever way the
tie is resolved, fits the width with its sign (nothing wraps), is at most half a revolution, and reaches the target. -/
def Obligations.ShorterArcFitsEveryWidth : Prop :=
  ∀ (width : Nat) (tieForward : Bool) (spr current target : BitVec width), spr.toNat < 2 ^ (width - 1) →
    current.toNat < spr.toNat → target.toNat < spr.toNat →
    ∃ arc : Int, shorterArc tieForward (zext spr) (zext current) (zext target) = arc ∧
      sext (trunc width arc) = arc ∧ 2 * arc.natAbs ≤ spr.toNat ∧
      ((current.toNat : Int) + arc) % spr.toNat = target.toNat

/-- R92: between a step of the motor and the next one, with no reset between, the stored samples are at least INTERVAL
apart by the clock, however many commands and clock changes came between. -/
def Obligations.StepsAreNeverCloserThanInterval : Prop :=
  ∀ (s₀ s₁ s₂ s₃ : State) (d₀ d₁ d₂ d₃ : Driver),
    s₀.driver = some d₀ → s₁.driver = some d₁ → s₂.driver = some d₂ → s₃.driver = some d₃ →
    (∀ i ∈ s₀.inputs.head?, i.keepsInstance = true) → step s₀ = .next s₁ → d₁.phase ≠ d₀.phase →
    QuietRun s₁ s₂ →
    (∀ i ∈ s₂.inputs.head?, i.keepsInstance = true) → step s₂ = .next s₃ → d₃.phase ≠ d₂.phase →
    d₃.interval ≤ elapsed d₃.lastStepTimestamp d₁.lastStepTimestamp

/-- R91: MOVE by `delta` and then |delta| polls, each at least INTERVAL after the step before it, take exactly |delta|
steps: phase and position move by `delta`, the counter is zero, the last POLL powers down and answers 1, and the traces
show each sample read once and each phase applied once. -/
def Obligations.MoveIsWalkedStepByStep : Prop :=
  ∀ (s : State) (d : Driver) (delta : Count) (samples : List Micros) (rest : List HostInput),
    s.driver = some d → d.LegalConfig → d.currentStep.toNat < d.spr.toNat →
    s.inputs = .command (encode (.move delta)) :: (pollAt samples ++ rest) →
    samples.length = delta.toInt.natAbs → Spaced d.interval d.lastStepTimestamp samples →
    ∃ (t : State) (e : Driver), Host.Core.run core (1 + 2 * samples.length) s = .next t ∧ t.driver = some e ∧
      t.inputs = rest ∧ e.remainingSteps = 0 ∧
      e.phase = d.phase + BitVec.ofInt 3 delta.toInt ∧
      (e.currentStep.toNat : Int) = (d.currentStep.toNat + delta.toInt) % d.spr.toNat ∧
      e.lastStepTimestamp = samples.getLast?.getD d.lastStepTimestamp ∧
      e.clockTrace = d.clockTrace ++ samples ∧
      e.outputTrace = d.outputTrace ++ [pat d.phase] ++
        (List.range samples.length).map (fun k : Nat => pat (d.phase + BitVec.ofInt 3 (delta.toInt.sign * ((k : Int) + 1)))) ++
        (if samples = [] then [] else [0]) ∧
      (samples ≠ [] → e.lines = 0 ∧ t.rsp = some 1)

/-- R104: `n` forward steps move the phase by `n` modulo 8 and the position by `n` modulo SPR; so after SPR of them the
position is back, and the phase is back exactly when SPR is a multiple of 8. -/
def Obligations.ForwardStepsArePeriodic : Prop :=
  ∀ d : Driver, d.currentStep.toNat < d.spr.toNat →
    (∀ n : Nat, (Driver.advance^[n] d).phase.toNat = (d.phase.toNat + n) % 8 ∧
      (Driver.advance^[n] d).currentStep.toNat = (d.currentStep.toNat + n) % d.spr.toNat) ∧
    (Driver.advance^[d.spr.toNat] d).currentStep = d.currentStep ∧
    ((Driver.advance^[d.spr.toNat] d).phase = d.phase ↔ 8 ∣ d.spr.toNat)

/-- R102: every command on a constructed block, and every reset, is one row of the output state machine, with exactly
the `Apply` events of that row. -/
def Obligations.OutputsFollowTheStateMachine : Prop :=
  (∀ (s t : State) (d : Driver) (i : Instr), s.Inv → s.driver = some d → exec i s = .next t →
    ∃ (e : Driver) (events : List Levels), t.driver = some e ∧ e.outputTrace = d.outputTrace ++ events ∧
      OutputRow (d.outputCause s.now i) s.outputs t.outputs events) ∧
  (∀ (s t : State) (cfgSpr : Count) (cfgInterval lastReset : Micros) (midCommand : Bool) (rest : List HostInput),
    s.inputs = .reset cfgSpr cfgInterval lastReset midCommand :: rest → step s = .next t →
    OutputRow (if 0 < cfgSpr.toInt ∧ cfgInterval ≠ 0 then .constructed else .constructionFailed) s.outputs t.outputs [] ∧
      ∀ e, t.driver = some e → e.outputTrace = [])
end

