-- ==== Sys2Proof/Laws/PerInstr.lean ====
section
/-! SUPPORT. What holds of every command as syntax, one lemma per constructor. -/

/-- The canonical word of a command holds its opcode in `CW[SW+3:SW]` and its operand in `CW[SW-1:0]` (R46). -/
def Sys2Proof.Laws.EncodedFields.Statement (i : Sys2Proof.Instr) : Prop :=
  Sys2Proof.CommandWord.op (Sys2Proof.encode i) = i.opcode ∧ Sys2Proof.CommandWord.arg (Sys2Proof.encode i) = i.operand

namespace Sys2Proof.Laws.EncodedFields

/-- The two fields of a concatenation are its parts. -/
theorem fields_of_append (op : Opcode) (arg : Count) :
    CommandWord.op (op ++ arg) = op ∧ CommandWord.arg (op ++ arg) = arg := by
  constructor
  · refine BitVec.eq_of_getLsbD_eq fun i hi => ?_
    have h : (op ++ arg).getLsbD (Config.SW + i) = _ := BitVec.getLsbD_append (n := 4) (m := Config.SW)
    simpa [CommandWord.op, hi] using h
  · refine BitVec.eq_of_getLsbD_eq fun i hi => ?_
    have h : (op ++ arg).getLsbD i = _ := BitVec.getLsbD_append (n := 4) (m := Config.SW)
    simpa [CommandWord.arg, hi] using h

theorem poll : Statement .poll := fields_of_append _ _
theorem move (delta : Count) : Statement (.move delta) := fields_of_append _ _
theorem moveTo (target : Count) : Statement (.moveTo target) := fields_of_append _ _
theorem stop : Statement .stop := fields_of_append _ _
theorem rdpos : Statement .rdpos := fields_of_append _ _
theorem rdrem : Statement .rdrem := fields_of_append _ _

end Sys2Proof.Laws.EncodedFields
end

