-- ==== Sys2Proof/Laws/Decode.lean ====
section
/-! SUPPORT. The fields of a command word as numbers, and the word from its fields, at whatever width `Config.SW` is. -/

namespace Sys2Proof

/-- The opcode field is the word's top four bits. -/
theorem CommandWord.op_toNat (w : CommandWord) : (CommandWord.op w).toNat = w.toNat / 2 ^ Config.SW := by
  have top : w.toNat / 2 ^ Config.SW < 2 ^ 4 :=
    Nat.div_lt_of_lt_mul (by have := w.isLt; rwa [Nat.pow_add, Nat.mul_comm] at this)
  rw [op, BitVec.extractLsb'_toNat, Nat.shiftRight_eq_div_pow, Nat.mod_eq_of_lt top]

/-- The operand field is the word's low SW bits. -/
theorem CommandWord.arg_toNat (w : CommandWord) : (CommandWord.arg w).toNat = w.toNat % 2 ^ Config.SW := by
  rw [arg, BitVec.extractLsb'_toNat, Nat.shiftRight_zero]

/-- A word is its opcode above its operand. -/
theorem CommandWord.toNat_eq (w : CommandWord) :
    w.toNat = (CommandWord.op w).toNat * 2 ^ Config.SW + (CommandWord.arg w).toNat := by
  rw [op_toNat, arg_toNat, Nat.div_add_mod']

/-- The opcode of a word as a range of the word. -/
theorem CommandWord.le_op_iff (w : CommandWord) (n : Nat) :
    n ≤ (CommandWord.op w).toNat ↔ n * 2 ^ Config.SW ≤ w.toNat := by
  rw [op_toNat, Nat.le_div_iff_mul_le (Nat.two_pow_pos _)]

/-- Shifting the operand out and zeros in keeps the opcode field alone. -/
theorem CommandWord.toNat_clearArg (w : CommandWord) :
    (w >>> Config.SW <<< Config.SW).toNat = (CommandWord.op w).toNat * 2 ^ Config.SW := by
  have below : w.toNat / 2 ^ Config.SW * 2 ^ Config.SW < 2 ^ (4 + Config.SW) :=
    Nat.lt_of_le_of_lt (Nat.div_mul_le_self _ _) w.isLt
  rw [op_toNat, BitVec.toNat_shiftLeft, BitVec.toNat_ushiftRight, Nat.shiftLeft_eq, Nat.shiftRight_eq_div_pow,
    Nat.mod_eq_of_lt below]

/-- The decoder rejects exactly the opcodes 6 to 15, by name (R56). -/
theorem decode_error {w : CommandWord} {e : DecodeError} :
    decode w = .error e ↔ 6 ≤ (CommandWord.op w).toNat ∧ e = .reservedOpcode (CommandWord.op w) := by
  unfold decode
  split
  case h_7 h0 h1 h2 h3 h4 h5 =>
    have : 6 ≤ (CommandWord.op w).toNat := by
      by_contra hlt
      interval_cases (CommandWord.op w).toNat <;> simp_all
    simp [this, eq_comm]
  all_goals next h => simp [h]

end Sys2Proof
end

