-- ==== Sys2Proof/Laws/State.lean ====
section
/-! SUPPORT. One lemma per field per update of the state and of an instance, so that no later proof unfolds one; before
them the ranges of the widths as numerals. -/

namespace Sys2Proof

/-! ### The ranges of the widths as numerals, at the values `Config` gives them -/

theorem Config.two_pow_SW : 2 ^ Config.SW = 65536 := rfl
theorem Config.two_pow_SW_sub_one : 2 ^ (Config.SW - 1) = 32768 := rfl
theorem Config.two_pow_word : 2 ^ (4 + Config.SW) = 1048576 := rfl
theorem Config.two_pow_TW : 2 ^ Config.TW = 4294967296 := rfl

end Sys2Proof

namespace Sys2Proof.Machine

/-- Four `setLine` calls leave nothing of the old levels (R34). -/
theorem setAllLines_eq (v old : Levels) : setAllLines v old = v := by
  revert v old; decide

/-! ### `Driver.apply` -/

@[simp] theorem Driver.apply_phase (d : Driver) (v : Levels) : (d.apply v).phase = d.phase := rfl
@[simp] theorem Driver.apply_currentStep (d : Driver) (v : Levels) : (d.apply v).currentStep = d.currentStep := rfl
@[simp] theorem Driver.apply_remainingSteps (d : Driver) (v : Levels) : (d.apply v).remainingSteps = d.remainingSteps :=
  rfl
@[simp] theorem Driver.apply_lastStepTimestamp (d : Driver) (v : Levels) : (d.apply v).lastStepTimestamp = d.lastStepTimestamp :=
  rfl
@[simp] theorem Driver.apply_spr (d : Driver) (v : Levels) : (d.apply v).spr = d.spr := rfl
@[simp] theorem Driver.apply_interval (d : Driver) (v : Levels) : (d.apply v).interval = d.interval := rfl
@[simp] theorem Driver.apply_lines (d : Driver) (v : Levels) : (d.apply v).lines = v := setAllLines_eq v d.lines
@[simp] theorem Driver.apply_trace (d : Driver) (v : Levels) : (d.apply v).trace = d.trace ++ [.apply v] := rfl

/-! ### `Driver.stepForward` -/

@[simp] theorem Driver.stepForward_phase (d : Driver) : (d.stepForward).phase = d.phase + 1 := rfl
@[simp] theorem Driver.stepForward_currentStep (d : Driver) : (d.stepForward).currentStep = d.currentStep := rfl
@[simp] theorem Driver.stepForward_remainingSteps (d : Driver) : (d.stepForward).remainingSteps = d.remainingSteps :=
  rfl
@[simp] theorem Driver.stepForward_lastStepTimestamp (d : Driver) : (d.stepForward).lastStepTimestamp = d.lastStepTimestamp :=
  rfl
@[simp] theorem Driver.stepForward_spr (d : Driver) : (d.stepForward).spr = d.spr := rfl
@[simp] theorem Driver.stepForward_interval (d : Driver) : (d.stepForward).interval = d.interval := rfl
@[simp] theorem Driver.stepForward_lines (d : Driver) : (d.stepForward).lines = pat (d.phase + 1) :=
  setAllLines_eq _ d.lines
@[simp] theorem Driver.stepForward_trace (d : Driver) : (d.stepForward).trace = d.trace ++ [.apply (pat (d.phase + 1))] :=
  rfl

/-! ### `Driver.stepReverse` -/

@[simp] theorem Driver.stepReverse_phase (d : Driver) : (d.stepReverse).phase = d.phase - 1 := rfl
@[simp] theorem Driver.stepReverse_currentStep (d : Driver) : (d.stepReverse).currentStep = d.currentStep := rfl
@[simp] theorem Driver.stepReverse_remainingSteps (d : Driver) : (d.stepReverse).remainingSteps = d.remainingSteps :=
  rfl
@[simp] theorem Driver.stepReverse_lastStepTimestamp (d : Driver) : (d.stepReverse).lastStepTimestamp = d.lastStepTimestamp :=
  rfl
@[simp] theorem Driver.stepReverse_spr (d : Driver) : (d.stepReverse).spr = d.spr := rfl
@[simp] theorem Driver.stepReverse_interval (d : Driver) : (d.stepReverse).interval = d.interval := rfl
@[simp] theorem Driver.stepReverse_lines (d : Driver) : (d.stepReverse).lines = pat (d.phase - 1) :=
  setAllLines_eq _ d.lines
@[simp] theorem Driver.stepReverse_trace (d : Driver) : (d.stepReverse).trace = d.trace ++ [.apply (pat (d.phase - 1))] :=
  rfl

/-! ### `Driver.powerUp` -/

@[simp] theorem Driver.powerUp_phase (d : Driver) : (d.powerUp).phase = d.phase := rfl
@[simp] theorem Driver.powerUp_currentStep (d : Driver) : (d.powerUp).currentStep = d.currentStep := rfl
@[simp] theorem Driver.powerUp_remainingSteps (d : Driver) : (d.powerUp).remainingSteps = d.remainingSteps := rfl
@[simp] theorem Driver.powerUp_lastStepTimestamp (d : Driver) : (d.powerUp).lastStepTimestamp = d.lastStepTimestamp :=
  rfl
@[simp] theorem Driver.powerUp_spr (d : Driver) : (d.powerUp).spr = d.spr := rfl
@[simp] theorem Driver.powerUp_interval (d : Driver) : (d.powerUp).interval = d.interval := rfl
@[simp] theorem Driver.powerUp_lines (d : Driver) : (d.powerUp).lines = pat d.phase := setAllLines_eq _ d.lines
@[simp] theorem Driver.powerUp_trace (d : Driver) : (d.powerUp).trace = d.trace ++ [.apply (pat d.phase)] := rfl

/-! ### `Driver.powerDown` -/

@[simp] theorem Driver.powerDown_phase (d : Driver) : (d.powerDown).phase = d.phase := rfl
@[simp] theorem Driver.powerDown_currentStep (d : Driver) : (d.powerDown).currentStep = d.currentStep := rfl
@[simp] theorem Driver.powerDown_remainingSteps (d : Driver) : (d.powerDown).remainingSteps = d.remainingSteps := rfl
@[simp] theorem Driver.powerDown_lastStepTimestamp (d : Driver) : (d.powerDown).lastStepTimestamp = d.lastStepTimestamp :=
  rfl
@[simp] theorem Driver.powerDown_spr (d : Driver) : (d.powerDown).spr = d.spr := rfl
@[simp] theorem Driver.powerDown_interval (d : Driver) : (d.powerDown).interval = d.interval := rfl
@[simp] theorem Driver.powerDown_lines (d : Driver) : (d.powerDown).lines = 0 := setAllLines_eq _ d.lines
@[simp] theorem Driver.powerDown_trace (d : Driver) : (d.powerDown).trace = d.trace ++ [.apply 0] := rfl

/-! ### `Driver.readClock` -/

@[simp] theorem Driver.readClock_phase (d : Driver) (t : Micros) : (d.readClock t).phase = d.phase := rfl
@[simp] theorem Driver.readClock_currentStep (d : Driver) (t : Micros) : (d.readClock t).currentStep = d.currentStep :=
  rfl
@[simp] theorem Driver.readClock_remainingSteps (d : Driver) (t : Micros) : (d.readClock t).remainingSteps = d.remainingSteps :=
  rfl
@[simp] theorem Driver.readClock_lastStepTimestamp (d : Driver) (t : Micros) : (d.readClock t).lastStepTimestamp = d.lastStepTimestamp :=
  rfl
@[simp] theorem Driver.readClock_spr (d : Driver) (t : Micros) : (d.readClock t).spr = d.spr := rfl
@[simp] theorem Driver.readClock_interval (d : Driver) (t : Micros) : (d.readClock t).interval = d.interval := rfl
@[simp] theorem Driver.readClock_lines (d : Driver) (t : Micros) : (d.readClock t).lines = d.lines := rfl
@[simp] theorem Driver.readClock_trace (d : Driver) (t : Micros) : (d.readClock t).trace = d.trace ++ [.clockRead t] :=
  rfl

/-! ### `Driver.load` -/

@[simp] theorem Driver.load_phase (d : Driver) (n : Count) : (d.load n).phase = d.phase := rfl
@[simp] theorem Driver.load_currentStep (d : Driver) (n : Count) : (d.load n).currentStep = d.currentStep := rfl
@[simp] theorem Driver.load_remainingSteps (d : Driver) (n : Count) : (d.load n).remainingSteps = n := rfl
@[simp] theorem Driver.load_lastStepTimestamp (d : Driver) (n : Count) : (d.load n).lastStepTimestamp = d.lastStepTimestamp :=
  rfl
@[simp] theorem Driver.load_spr (d : Driver) (n : Count) : (d.load n).spr = d.spr := rfl
@[simp] theorem Driver.load_interval (d : Driver) (n : Count) : (d.load n).interval = d.interval := rfl
@[simp] theorem Driver.load_lines (d : Driver) (n : Count) : (d.load n).lines = d.lines := rfl
@[simp] theorem Driver.load_trace (d : Driver) (n : Count) : (d.load n).trace = d.trace := rfl

/-! ### `Driver.advance` -/

@[simp] theorem Driver.advance_phase (d : Driver) : (d.advance).phase = d.phase + 1 := rfl
@[simp] theorem Driver.advance_currentStep (d : Driver) : (d.advance).currentStep = nextPosition d.spr d.currentStep :=
  rfl
@[simp] theorem Driver.advance_remainingSteps (d : Driver) : (d.advance).remainingSteps = d.remainingSteps - 1 := rfl
@[simp] theorem Driver.advance_lastStepTimestamp (d : Driver) : (d.advance).lastStepTimestamp = d.lastStepTimestamp :=
  rfl
@[simp] theorem Driver.advance_spr (d : Driver) : (d.advance).spr = d.spr := rfl
@[simp] theorem Driver.advance_interval (d : Driver) : (d.advance).interval = d.interval := rfl
@[simp] theorem Driver.advance_lines (d : Driver) : (d.advance).lines = pat (d.phase + 1) := setAllLines_eq _ d.lines
@[simp] theorem Driver.advance_trace (d : Driver) : (d.advance).trace = d.trace ++ [.apply (pat (d.phase + 1))] := rfl

/-! ### `Driver.retreat` -/

@[simp] theorem Driver.retreat_phase (d : Driver) : (d.retreat).phase = d.phase - 1 := rfl
@[simp] theorem Driver.retreat_currentStep (d : Driver) : (d.retreat).currentStep = prevPosition d.spr d.currentStep :=
  rfl
@[simp] theorem Driver.retreat_remainingSteps (d : Driver) : (d.retreat).remainingSteps = d.remainingSteps + 1 := rfl
@[simp] theorem Driver.retreat_lastStepTimestamp (d : Driver) : (d.retreat).lastStepTimestamp = d.lastStepTimestamp :=
  rfl
@[simp] theorem Driver.retreat_spr (d : Driver) : (d.retreat).spr = d.spr := rfl
@[simp] theorem Driver.retreat_interval (d : Driver) : (d.retreat).interval = d.interval := rfl
@[simp] theorem Driver.retreat_lines (d : Driver) : (d.retreat).lines = pat (d.phase - 1) := setAllLines_eq _ d.lines
@[simp] theorem Driver.retreat_trace (d : Driver) : (d.retreat).trace = d.trace ++ [.apply (pat (d.phase - 1))] := rfl

/-! ### `Driver.takeStep` and `Driver.finish` -/

@[simp] theorem Driver.takeStep_phase (d : Driver) (t : Micros) :
    (d.takeStep t).phase = if d.forward then d.phase + 1 else d.phase - 1 := by
  cases h : d.forward <;> simp [Driver.takeStep, h]

@[simp] theorem Driver.takeStep_currentStep (d : Driver) (t : Micros) :
    (d.takeStep t).currentStep = if d.forward then nextPosition d.spr d.currentStep else prevPosition d.spr d.currentStep := by
  cases h : d.forward <;> simp [Driver.takeStep, h]

@[simp] theorem Driver.takeStep_remainingSteps (d : Driver) (t : Micros) :
    (d.takeStep t).remainingSteps = if d.forward then d.remainingSteps - 1 else d.remainingSteps + 1 := by
  cases h : d.forward <;> simp [Driver.takeStep, h]

@[simp] theorem Driver.takeStep_lastStepTimestamp (d : Driver) (t : Micros) : (d.takeStep t).lastStepTimestamp = t := rfl

@[simp] theorem Driver.takeStep_spr (d : Driver) (t : Micros) :
    (d.takeStep t).spr = d.spr := by
  cases h : d.forward <;> simp [Driver.takeStep, h]

@[simp] theorem Driver.takeStep_interval (d : Driver) (t : Micros) :
    (d.takeStep t).interval = d.interval := by
  cases h : d.forward <;> simp [Driver.takeStep, h]

@[simp] theorem Driver.takeStep_lines (d : Driver) (t : Micros) :
    (d.takeStep t).lines = if d.forward then pat (d.phase + 1) else pat (d.phase - 1) := by
  cases h : d.forward <;> simp [Driver.takeStep, h]

@[simp] theorem Driver.takeStep_trace (d : Driver) (t : Micros) :
    (d.takeStep t).trace = if d.forward then d.trace ++ [.apply (pat (d.phase + 1))] else d.trace ++ [.apply (pat (d.phase - 1))] := by
  cases h : d.forward <;> simp [Driver.takeStep, h]

@[simp] theorem Driver.finish_phase (d : Driver) : d.finish.phase = d.phase := by
  cases h : d.idle <;> simp [Driver.finish, h]

@[simp] theorem Driver.finish_currentStep (d : Driver) : d.finish.currentStep = d.currentStep := by
  cases h : d.idle <;> simp [Driver.finish, h]

@[simp] theorem Driver.finish_remainingSteps (d : Driver) : d.finish.remainingSteps = d.remainingSteps := by
  cases h : d.idle <;> simp [Driver.finish, h]

@[simp] theorem Driver.finish_lastStepTimestamp (d : Driver) : d.finish.lastStepTimestamp = d.lastStepTimestamp := by
  cases h : d.idle <;> simp [Driver.finish, h]

@[simp] theorem Driver.finish_spr (d : Driver) : d.finish.spr = d.spr := by
  cases h : d.idle <;> simp [Driver.finish, h]

@[simp] theorem Driver.finish_interval (d : Driver) : d.finish.interval = d.interval := by
  cases h : d.idle <;> simp [Driver.finish, h]

@[simp] theorem Driver.finish_lines (d : Driver) : d.finish.lines = if d.idle then 0 else d.lines := by
  cases h : d.idle <;> simp [Driver.finish, h]

@[simp] theorem Driver.finish_trace (d : Driver) : d.finish.trace = if d.idle then d.trace ++ [.apply 0] else d.trace := by
  cases h : d.idle <;> simp [Driver.finish, h]

/-! ### `State.complete` -/

@[simp] theorem State.complete_driver (s : State) (d : Driver) (r : Count) : (s.complete d r).driver = some d := rfl
@[simp] theorem State.complete_lineOe (s : State) (d : Driver) (r : Count) : (s.complete d r).lineOe = s.lineOe := rfl
@[simp] theorem State.complete_cfgErr (s : State) (d : Driver) (r : Count) : (s.complete d r).cfgErr = s.cfgErr := rfl
@[simp] theorem State.complete_rsp (s : State) (d : Driver) (r : Count) : (s.complete d r).rsp = some r := rfl
@[simp] theorem State.complete_now (s : State) (d : Driver) (r : Count) : (s.complete d r).now = s.now := rfl
@[simp] theorem State.complete_inputs (s : State) (d : Driver) (r : Count) : (s.complete d r).inputs = s.inputs := rfl
@[simp] theorem State.complete_draws (s : State) (d : Driver) (r : Count) : (s.complete d r).draws = s.draws := rfl

/-! ### `State.takeInput` -/

@[simp] theorem State.takeInput_driver (s : State) (l : List HostInput) : (s.takeInput l).driver = s.driver := rfl
@[simp] theorem State.takeInput_lineOe (s : State) (l : List HostInput) : (s.takeInput l).lineOe = s.lineOe := rfl
@[simp] theorem State.takeInput_cfgErr (s : State) (l : List HostInput) : (s.takeInput l).cfgErr = s.cfgErr := rfl
@[simp] theorem State.takeInput_rsp (s : State) (l : List HostInput) : (s.takeInput l).rsp = s.rsp := rfl
@[simp] theorem State.takeInput_now (s : State) (l : List HostInput) : (s.takeInput l).now = s.now := rfl
@[simp] theorem State.takeInput_inputs (s : State) (l : List HostInput) : (s.takeInput l).inputs = l := rfl
@[simp] theorem State.takeInput_draws (s : State) (l : List HostInput) : (s.takeInput l).draws = s.draws := rfl

/-! ### `State.install` -/

@[simp] theorem State.install_driver (s : State) (d : Driver) : (s.install d).driver = some d := rfl
@[simp] theorem State.install_lineOe (s : State) (d : Driver) : (s.install d).lineOe = true := rfl
@[simp] theorem State.install_cfgErr (s : State) (d : Driver) : (s.install d).cfgErr = false := rfl
@[simp] theorem State.install_rsp (s : State) (d : Driver) : (s.install d).rsp = s.rsp := rfl
@[simp] theorem State.install_now (s : State) (d : Driver) : (s.install d).now = s.now := rfl
@[simp] theorem State.install_inputs (s : State) (d : Driver) : (s.install d).inputs = s.inputs := rfl
@[simp] theorem State.install_draws (s : State) (d : Driver) : (s.install d).draws = s.draws := rfl

/-! ### `State.takeInvalidConfiguration` -/

@[simp] theorem State.takeInvalidConfiguration_driver (s : State) : (s.takeInvalidConfiguration).driver = none := rfl
@[simp] theorem State.takeInvalidConfiguration_lineOe (s : State) : (s.takeInvalidConfiguration).lineOe = false := rfl
@[simp] theorem State.takeInvalidConfiguration_cfgErr (s : State) : (s.takeInvalidConfiguration).cfgErr = true := rfl
@[simp] theorem State.takeInvalidConfiguration_rsp (s : State) : (s.takeInvalidConfiguration).rsp = s.rsp := rfl
@[simp] theorem State.takeInvalidConfiguration_now (s : State) : (s.takeInvalidConfiguration).now = s.now := rfl
@[simp] theorem State.takeInvalidConfiguration_inputs (s : State) : (s.takeInvalidConfiguration).inputs = s.inputs :=
  rfl
@[simp] theorem State.takeInvalidConfiguration_draws (s : State) : (s.takeInvalidConfiguration).draws = s.draws := rfl

/-! ### `State.withFetchWord` -/

@[simp] theorem State.withFetchWord_driver (s : State) (n w : Nat) : (s.withFetchWord n w).driver = s.driver := rfl
@[simp] theorem State.withFetchWord_lineOe (s : State) (n w : Nat) : (s.withFetchWord n w).lineOe = s.lineOe := rfl
@[simp] theorem State.withFetchWord_cfgErr (s : State) (n w : Nat) : (s.withFetchWord n w).cfgErr = s.cfgErr := rfl
@[simp] theorem State.withFetchWord_rsp (s : State) (n w : Nat) : (s.withFetchWord n w).rsp = s.rsp := rfl
@[simp] theorem State.withFetchWord_now (s : State) (n w : Nat) : (s.withFetchWord n w).now = s.now := rfl
@[simp] theorem State.withFetchWord_inputs (s : State) (n w : Nat) : (s.withFetchWord n w).inputs = .command (CommandWord.ofBits w) :: s.inputs :=
  rfl
@[simp] theorem State.withFetchWord_draws (s : State) (n w : Nat) : (s.withFetchWord n w).draws = s.draws := rfl

/-! ### `State.dropResponse` -/

@[simp] theorem State.dropResponse_driver (s : State) (m : Bool) :
    (s.dropResponse m).driver = s.driver := by
  cases m <;> rfl

@[simp] theorem State.dropResponse_lineOe (s : State) (m : Bool) :
    (s.dropResponse m).lineOe = s.lineOe := by
  cases m <;> rfl

@[simp] theorem State.dropResponse_cfgErr (s : State) (m : Bool) :
    (s.dropResponse m).cfgErr = s.cfgErr := by
  cases m <;> rfl

@[simp] theorem State.dropResponse_rsp (s : State) (m : Bool) :
    (s.dropResponse m).rsp = if m then Config.cutResponse s.draws else none := by
  cases m <;> rfl

@[simp] theorem State.dropResponse_now (s : State) (m : Bool) :
    (s.dropResponse m).now = s.now := by
  cases m <;> rfl

@[simp] theorem State.dropResponse_inputs (s : State) (m : Bool) :
    (s.dropResponse m).inputs = s.inputs := by
  cases m <;> rfl

@[simp] theorem State.dropResponse_draws (s : State) (m : Bool) :
    (s.dropResponse m).draws = if m then s.draws + 1 else s.draws := by
  cases m <;> rfl

end Sys2Proof.Machine
end

