-- ==== Sys2Proof/Laws/Ops.lean ====
section
/-! SUPPORT. What each shared operation can do, said once. -/

namespace Sys2Proof.Machine

/-- A command that answers a next state ran on an instance. -/
theorem State.withDriver_next {s t : State} {f : Driver → Host.Outcome State Fault Refusal} :
    s.withDriver f = .next t ↔ ∃ d, s.driver = some d ∧ f d = .next t := by
  cases h : s.driver <;> simp [State.withDriver, h]

/-- A command is refused for want of an instance, or by its own test. -/
theorem State.withDriver_refused {s : State} {r : Refusal} {f : Driver → Host.Outcome State Fault Refusal} :
    s.withDriver f = .refused r ↔
      (s.driver = none ∧ r = .notConstructed) ∨ ∃ d, s.driver = some d ∧ f d = .refused r := by
  cases h : s.driver <;> simp [State.withDriver, h, eq_comm]

/-- A command faults only where its own body does. -/
theorem State.withDriver_fault {s : State} {e : Fault} {f : Driver → Host.Outcome State Fault Refusal} :
    s.withDriver f = .fault e ↔ ∃ d, s.driver = some d ∧ f d = .fault e := by
  cases h : s.driver <;> simp [State.withDriver, h]

/-- With an instance a command runs on it. -/
theorem State.withDriver_some {s : State} {d : Driver} (h : s.driver = some d)
    (f : Driver → Host.Outcome State Fault Refusal) : s.withDriver f = f d := by
  simp [State.withDriver, h]

/-- Without an instance a command is refused. -/
theorem State.withDriver_none {s : State} (h : s.driver = none)
    (f : Driver → Host.Outcome State Fault Refusal) : s.withDriver f = .refused .notConstructed := by
  simp [State.withDriver, h]

/-- A construction fails exactly on a configuration that is not positive. -/
theorem construct_error {cfgSpr : Count} {cfgInterval lastReset : Micros} {e : Fault} :
    construct cfgSpr cfgInterval lastReset = .error e ↔ cfgSpr.toInt ≤ 0 ∨ cfgInterval = 0 := by
  cases e
  unfold construct sext
  split <;> simp_all

/-- A construction that succeeds has a positive configuration and every register at its reset value. -/
theorem construct_ok {cfgSpr : Count} {cfgInterval lastReset : Micros} {d : Driver} :
    construct cfgSpr cfgInterval lastReset = .ok d ↔
      (0 < cfgSpr.toInt ∧ cfgInterval ≠ 0) ∧
        { phase := 0, currentStep := 0, remainingSteps := 0, lastStepTimestamp := lastReset
          spr := cfgSpr, interval := cfgInterval, lines := 0, trace := [] } = d := by
  unfold construct sext
  split
  · next h => simp only [reduceCtorEq, false_iff, not_and]; rintro ⟨hs, hi⟩; rcases h with h | h <;> [omega; contradiction]
  · next h =>
    obtain ⟨hs, hi⟩ := not_or.1 h
    exact ⟨fun e => ⟨⟨by omega, hi⟩, by simpa using e⟩, fun e => congrArg _ e.2⟩

/-- A reset always answers a next state: the new instance, or none with CFG_ERR. -/
theorem execReset_cases (cfgSpr : Count) (cfgInterval lastReset : Micros) (m : Bool) (s : State) :
    ((cfgSpr.toInt ≤ 0 ∨ cfgInterval = 0) ∧
      execReset cfgSpr cfgInterval lastReset m s = .next (s.dropResponse m).takeInvalidConfiguration) ∨
    ∃ d, construct cfgSpr cfgInterval lastReset = .ok d ∧
      execReset cfgSpr cfgInterval lastReset m s = .next ((s.dropResponse m).install d) := by
  cases h : construct cfgSpr cfgInterval lastReset with
  | error e => cases e; exact .inl ⟨construct_error.1 h, by simp [execReset, h]⟩
  | ok d => exact .inr ⟨d, rfl, by simp [execReset, h]⟩

/-- The only positions are those below SPR, forward. -/
theorem nextPosition_toNat {w : Nat} {spr current : BitVec w} (h : current.toNat < spr.toNat) :
    (nextPosition spr current).toNat = (current.toNat + 1) % spr.toNat := by
  have hs := spr.isLt
  have hm := Nat.mod_lt (current.toNat + 1) (show 0 < spr.toNat by omega)
  have : nextPosition spr current = BitVec.ofNat w ((current.toNat + 1) % spr.toNat) := by
    simp only [nextPosition, trunc, zext]
    exact_mod_cast BitVec.ofInt_natCast w ((current.toNat + 1) % spr.toNat)
  rw [this, BitVec.toNat_ofNat, Nat.mod_eq_of_lt (by omega)]

/-- The only positions are those below SPR, in reverse. -/
theorem prevPosition_toNat {w : Nat} {spr current : BitVec w} (h : current.toNat < spr.toNat) :
    (prevPosition spr current).toNat = if current.toNat = 0 then spr.toNat - 1 else current.toNat - 1 := by
  have hs := spr.isLt
  have key : (zext current - 1) % zext spr = ((if current.toNat = 0 then spr.toNat - 1 else current.toNat - 1 : Nat) : Int) := by
    simp only [zext]
    split
    · next h0 =>
      rw [h0, ← Int.add_emod_right, Int.emod_eq_of_lt] <;> push_cast <;> omega
    · rw [Int.emod_eq_of_lt] <;> omega
  rw [prevPosition, key, trunc, BitVec.ofInt_natCast, BitVec.toNat_ofNat, Nat.mod_eq_of_lt]
  split <;> omega

end Sys2Proof.Machine
end

