-- ==== Sys2Proof/Laws/Step.lean ====
section
/-! SUPPORT. What each command does to an instance, and what a step can do, said once. -/

namespace Sys2Proof.Machine

/-- Every command that answers a next state leaves an instance and a response, and touches nothing else. -/
theorem exec_next {i : Instr} {s t : State} (h : exec i s = .next t) :
    ∃ d d' r, s.driver = some d ∧ t = s.complete d' r ∧
      ((i = .poll ∧ d.idle = true ∧ d' = d ∧ r = 1) ∨
       (i = .poll ∧ d.idle = false ∧ d.due s.now = false ∧ d' = d.readClock s.now ∧ r = 0) ∨
       (i = .poll ∧ d.idle = false ∧ d.due s.now = true ∧
          d' = ((d.readClock s.now).takeStep s.now).finish ∧ r = d'.pollResult) ∨
       (∃ n, i = .move n ∧ d' = (d.load n).powerUp ∧ r = 0) ∨
       (∃ n, i = .moveTo n ∧ zext n < zext d.spr ∧ r = 0 ∧ d' = (d.load (trunc Config.SW
          (shorterArc Config.tieForward (zext d.spr) (zext d.currentStep) (zext n)))).powerUp) ∨
       (i = .stop ∧ d' = (d.load 0).powerDown ∧ r = 0) ∨
       (i = .rdpos ∧ d' = d ∧ r = d.currentStep) ∨
       (i = .rdrem ∧ d' = d ∧ r = d.remainingSteps)) := by
  cases i with
  | poll =>
    obtain ⟨d, hd, h⟩ := State.withDriver_next.1 h
    cases hi : d.idle with
    | true => exact ⟨d, d, 1, hd, by simpa [hi] using h.symm, by simp [hi]⟩
    | false =>
      cases hu : d.due s.now with
      | true => exact ⟨d, _, _, hd, by simpa [hi, hu] using h.symm, by simp [hi, hu]⟩
      | false => exact ⟨d, _, _, hd, by simpa [hi, hu] using h.symm, by simp [hi, hu]⟩
  | move n =>
    obtain ⟨d, hd, h⟩ := State.withDriver_next.1 h
    exact ⟨d, _, _, hd, by simpa using h.symm, by simp⟩
  | moveTo n =>
    obtain ⟨d, hd, h⟩ := State.withDriver_next.1 h
    by_cases hr : zext n ≥ zext d.spr
    · simp [hr] at h
    · exact ⟨d, _, _, hd, by simpa [hr] using h.symm, by simp at hr; simp [hr]⟩
  | stop =>
    obtain ⟨d, hd, h⟩ := State.withDriver_next.1 h
    exact ⟨d, _, _, hd, by simpa using h.symm, by simp⟩
  | rdpos =>
    obtain ⟨d, hd, h⟩ := State.withDriver_next.1 h
    exact ⟨d, _, _, hd, by simpa using h.symm, by simp⟩
  | rdrem =>
    obtain ⟨d, hd, h⟩ := State.withDriver_next.1 h
    exact ⟨d, _, _, hd, by simpa using h.symm, by simp⟩

/-- Every step that answers a next state waited, ran a decoded command, took a clock change, or took a reset. -/
theorem step_next {s t : State} (h : step s = .next t) :
    (s.inputs = [] ∧ t = s) ∨
    (∃ w i rest, s.inputs = .command w :: rest ∧ decode w = .ok i ∧ exec i (s.takeInput rest) = .next t) ∨
    (∃ m rest, s.inputs = .clock m :: rest ∧ t = { s.takeInput rest with now := m }) ∨
    (∃ c v l m rest, s.inputs = .reset c v l m :: rest ∧ execReset c v l m (s.takeInput rest) = .next t) := by
  unfold step at h
  split at h
  · next hin => exact .inl ⟨hin, by simpa [waitForInput] using h.symm⟩
  · next w rest hin =>
    split at h
    · next i hdec => exact .inr (.inl ⟨w, i, rest, hin, hdec, h⟩)
    · next e _ =>
      obtain ⟨d, -, h⟩ := State.withDriver_next.1 h
      cases e; cases h
  · obtain ⟨d, -, h⟩ := State.withDriver_next.1 h
    cases h
  · next m rest hin => exact .inr (.inr (.inl ⟨m, rest, hin, by simpa [clockTicks] using h.symm⟩))
  · next c v l m rest hin => exact .inr (.inr (.inr ⟨c, v, l, m, rest, hin, h⟩))

end Sys2Proof.Machine
end

