-- ==== Sys2Proof/Laws/Trace.lean ====
section
/-! SUPPORT. What each operation adds to the output trace and to the clock trace. -/

namespace Sys2Proof.Machine

@[simp] theorem Driver.outputTrace_apply (d : Driver) (v : Levels) : (d.apply v).outputTrace = d.outputTrace ++ [v] := by
  simp [Driver.outputTrace]

@[simp] theorem Driver.clockTrace_apply (d : Driver) (v : Levels) : (d.apply v).clockTrace = d.clockTrace := by
  simp [Driver.clockTrace]

@[simp] theorem Driver.outputTrace_powerUp (d : Driver) : d.powerUp.outputTrace = d.outputTrace ++ [pat d.phase] :=
  d.outputTrace_apply _

@[simp] theorem Driver.clockTrace_powerUp (d : Driver) : d.powerUp.clockTrace = d.clockTrace := d.clockTrace_apply _

@[simp] theorem Driver.outputTrace_powerDown (d : Driver) : d.powerDown.outputTrace = d.outputTrace ++ [0] :=
  d.outputTrace_apply _

@[simp] theorem Driver.clockTrace_powerDown (d : Driver) : d.powerDown.clockTrace = d.clockTrace := d.clockTrace_apply _

@[simp] theorem Driver.outputTrace_readClock (d : Driver) (t : Micros) : (d.readClock t).outputTrace = d.outputTrace := by
  simp [Driver.outputTrace]

@[simp] theorem Driver.clockTrace_readClock (d : Driver) (t : Micros) :
    (d.readClock t).clockTrace = d.clockTrace ++ [t] := by
  simp [Driver.clockTrace]

@[simp] theorem Driver.outputTrace_load (d : Driver) (n : Count) : (d.load n).outputTrace = d.outputTrace := rfl

@[simp] theorem Driver.clockTrace_load (d : Driver) (n : Count) : (d.load n).clockTrace = d.clockTrace := rfl

@[simp] theorem Driver.outputTrace_takeStep (d : Driver) (t : Micros) :
    (d.takeStep t).outputTrace = d.outputTrace ++ [pat (if d.forward then d.phase + 1 else d.phase - 1)] := by
  cases h : d.forward <;> simp [Driver.outputTrace, h]

@[simp] theorem Driver.clockTrace_takeStep (d : Driver) (t : Micros) : (d.takeStep t).clockTrace = d.clockTrace := by
  cases h : d.forward <;> simp [Driver.clockTrace, h]

@[simp] theorem Driver.outputTrace_finish (d : Driver) :
    d.finish.outputTrace = d.outputTrace ++ (if d.idle then [0] else []) := by
  cases h : d.idle <;> simp [Driver.finish, h]

@[simp] theorem Driver.clockTrace_finish (d : Driver) : d.finish.clockTrace = d.clockTrace := by
  cases h : d.idle <;> simp [Driver.finish, h]

@[simp] theorem Driver.forward_readClock (d : Driver) (t : Micros) : (d.readClock t).forward = d.forward := by
  simp [Driver.forward]

@[simp] theorem Driver.idle_readClock (d : Driver) (t : Micros) : (d.readClock t).idle = d.idle := by
  simp [Driver.idle]

@[simp] theorem Driver.idle_finish (d : Driver) : d.finish.idle = d.idle := by
  simp [Driver.idle]

/-- Idle in terms of the counter. -/
theorem Driver.idle_iff {d : Driver} : d.idle = true ↔ d.remainingSteps = 0 := by
  simp [Driver.idle]

/-- Due in terms of natural numbers: the clock's distance from the last sample, modulo 2^TW. -/
theorem Driver.due_iff {t : Micros} {d : Driver} :
    d.due t = true ↔ d.interval.toNat ≤ (t.toNat + 2 ^ Config.TW - d.lastStepTimestamp.toNat) % 2 ^ Config.TW := by
  have := d.lastStepTimestamp.isLt
  simp only [Driver.due, elapsed, decide_eq_true_eq, BitVec.le_def, BitVec.toNat_sub]
  rw [show 2 ^ Config.TW - d.lastStepTimestamp.toNat + t.toNat = t.toNat + 2 ^ Config.TW - d.lastStepTimestamp.toNat by omega]

/-- No pattern of the phase table is all-low (R31). -/
@[simp] theorem pat_ne_zero (p : Phase) : pat p ≠ 0 := by
  revert p; decide

end Sys2Proof.Machine
end

