-- ==== Sys2Proof/Tests/Slice0.lean ====
section
/-! SUPPORT. Small checks of the model against spec/95_test_vectors.md, the decoder's words, and for every statement
with hypotheses a state and operands that meet them together. The numbers are those of SW = 16 and TW = 32, the
defaults the vectors are written for. -/

namespace Sys2Proof.Tests

open Sys2Proof.Machine

/-! ### Well-formedness -/

theorem test_wf_target_top_bit_is_ill_formed : (Instr.moveTo 0x8000).wf = false := by decide
theorem test_wf_largest_target_is_well_formed : (Instr.moveTo 0x7FFF).wf = true := by decide
theorem test_wfFor_target_equal_to_spr_is_ill_formed : (Instr.moveTo 4096).wfFor 4096 = false := by decide
theorem test_wfFor_last_target_is_well_formed : (Instr.moveTo 4095).wfFor 4096 = true := by decide
theorem test_every_delta_is_well_formed : (Instr.move 0x8000).wf = true ∧ (Instr.move 0x8000).wfFor 1 = true := by decide

/-! ### Words of section 2.1, written out as opcode and operand bits (R46, R47) -/

theorem test_decode_poll : decode (0b0000_0000000000000000 : CommandWord) = .ok .poll := by decide
theorem test_decode_poll_ignores_operand : decode (0x0ABCD : CommandWord) = .ok .poll := by decide
theorem test_decode_move_one : decode (0b0001_0000000000000001 : CommandWord) = .ok (.move 1) := by decide
theorem test_decode_move_minus_one : decode (0x1FFFF : CommandWord) = .ok (.move (BitVec.ofInt 16 (-1))) := by decide
theorem test_decode_moveTo : decode (0b0010_0000111111111111 : CommandWord) = .ok (.moveTo 4095) := by decide
theorem test_decode_stop : decode (0b0011_0000000000000000 : CommandWord) = .ok .stop := by decide
theorem test_decode_rdpos : decode (0b0100_0000000000000000 : CommandWord) = .ok .rdpos := by decide
theorem test_decode_rdrem : decode (0b0101_0000000000000000 : CommandWord) = .ok .rdrem := by decide
theorem test_decode_first_reserved : decode (0x60000 : CommandWord) = .error (.reservedOpcode 6) := by decide
theorem test_decode_last_reserved : decode (0xF0000 : CommandWord) = .error (.reservedOpcode 15) := by decide
/-- R59: `MOVE -2` is 0x1FFFE and `MOVETO 4090` is 0x20FFA. -/
theorem test_encode_examples : encode (.move (BitVec.ofInt 16 (-2))) = 0x1FFFE ∧ encode (.moveTo 4090) = 0x20FFA := by decide

/-! ### A constructed block to test on -/

/-- An instance with SPR = 4096 and INTERVAL = 1000, last sample 0, no events. -/
def block (phase : Phase) (position count : Count) (levels : Levels) : Driver :=
  { phase := phase, currentStep := position, remainingSteps := count, lastStepTimestamp := 0
    spr := 4096, interval := 1000, lines := levels, trace := [] }

/-- The block with the clock input at `t`, nothing presented. -/
def at' (t : Micros) (d : Driver) : State := { State.reset with driver := some d, now := t }

/-- What a test row of the spec shows: phase, position, counter, lines, events, response. -/
structure Row where
  phase : Phase
  position : Count
  count : Count
  levels : Levels
  events : List Event
  response : Option Count
deriving DecidableEq, Repr

/-- The row a command leaves, if it answers a next state. -/
def view : Host.Outcome State Fault Refusal → Option Row
  | .next s => s.driver.map fun d => ⟨d.phase, d.currentStep, d.remainingSteps, d.lines, d.trace, s.rsp⟩
  | .fault _ => none
  | .refused _ => none

/-- Whether an outcome is a given refusal. -/
def refusedAs (r : Refusal) : Host.Outcome State Fault Refusal → Bool
  | .next _ => false
  | .fault _ => false
  | .refused q => q == r

/-! ### Section 2.2, MOVE -/

/-- Row 3: the old count is dropped. -/
theorem test_move_replaces_count :
    view (exec (.move (BitVec.ofInt 16 (-4))) (at' 0 (block 5 7 9 0b0100))) =
      some ⟨5, 7, BitVec.ofInt 16 (-4), 0b0100, [.apply 0b0100], some 0⟩ := by decide
/-- Row 2: MOVE 0 energizes. -/
theorem test_move_zero_energizes :
    view (exec (.move 0) (at' 0 (block 5 7 0 0))) = some ⟨5, 7, 0, 0b0100, [.apply 0b0100], some 0⟩ := by decide

/-! ### Section 2.3, MOVETO -/

/-- The shorter arc as a count, for a table row. -/
def arcOf (spr position target : Count) : Int := shorterArc Config.tieForward (zext spr) (zext position) (zext target)

theorem test_moveTo_rows_4096 :
    arcOf 4096 2048 0 = 2048 ∧ arcOf 4096 4000 100 = 196 ∧ arcOf 4096 100 4000 = -196 ∧ arcOf 4096 0 4090 = -6 ∧
      arcOf 4096 5 5 = 0 := by decide
theorem test_moveTo_rows_small :
    arcOf 5 0 2 = 2 ∧ arcOf 5 0 3 = -2 ∧ arcOf 5 4 0 = 1 ∧ arcOf 6 0 3 = 3 ∧ arcOf 6 3 0 = 3 ∧ arcOf 6 1 5 = -2 ∧
      arcOf 1 0 0 = 0 ∧ arcOf 2 0 1 = 1 ∧ arcOf 2 1 0 = 1 := by decide
theorem test_moveTo_rows_largest :
    arcOf 32767 0 16383 = 16383 ∧ arcOf 32767 0 16384 = -16383 ∧ arcOf 32767 32766 0 = 1 := by decide
/-- Section 2.3 and V-L1-3: `MOVETO 4090` from 0 loads 0xFFFA. -/
theorem test_moveTo_loads_reverse_arc :
    view (exec (.moveTo 4090) (at' 0 (block 0 0 0 0))) = some ⟨0, 0, 0xFFFA, 0b1001, [.apply 0b1001], some 0⟩ := by decide
theorem test_moveTo_target_spr_is_refused :
    refusedAs .targetOutOfRange (exec (.moveTo 4096) (at' 0 (block 0 0 0 0))) = true := by decide

/-! ### Sections 2.4 and 2.5, POLL -/

/-- Rows of section 2.4: equality across the wrap, one below, clock one behind, unsigned compare. -/
theorem test_due_rows :
    Driver.due 0x10 { block 0 0 1 0b1001 with lastStepTimestamp := 0xFFFFFF00, interval := 272 } = true ∧
      Driver.due 0x0F { block 0 0 1 0b1001 with lastStepTimestamp := 0xFFFFFF00, interval := 272 } = false ∧
      Driver.due 0x63 { block 0 0 1 0b1001 with lastStepTimestamp := 0x64 } = true ∧
      Driver.due 0 { block 0 0 1 0b1001 with lastStepTimestamp := 0x80000000, interval := 0x80000001 } = false := by decide
/-- Row 2 of section 2.5: both indices wrap forward. -/
theorem test_poll_wraps_forward :
    view (exec .poll (at' 1000 (block 7 4095 2 0b1000))) =
      some ⟨0, 0, 1, 0b1001, [.clockRead 1000, .apply 0b1001], some 0⟩ := by decide
/-- Row 3 of section 2.5: both indices wrap in reverse. -/
theorem test_poll_wraps_reverse :
    view (exec .poll (at' 1000 (block 0 0 (BitVec.ofInt 16 (-2)) 0b1001))) =
      some ⟨7, 4095, BitVec.ofInt 16 (-1), 0b1000, [.clockRead 1000, .apply 0b1000], some 0⟩ := by decide
/-- Row 5 of section 2.5: completion in reverse, two events. -/
theorem test_poll_completes_reverse :
    view (exec .poll (at' 1000 (block 3 10 (BitVec.ofInt 16 (-1)) 0b0010))) =
      some ⟨2, 9, 0, 0, [.clockRead 1000, .apply 0b0011, .apply 0], some 1⟩ := by decide
/-- Row 6 of section 2.5: no overflow at the most negative count. -/
theorem test_poll_most_negative_count :
    view (exec .poll (at' 1000 (block 3 10 0x8000 0b0010))) =
      some ⟨2, 9, 0x8001, 0b0011, [.clockRead 1000, .apply 0b0011], some 0⟩ := by decide
/-- Row 8 of section 2.5: not due. -/
theorem test_poll_not_due :
    view (exec .poll (at' 999 (block 3 10 5 0b0010))) = some ⟨3, 10, 5, 0b0010, [.clockRead 999], some 0⟩ := by decide
/-- Row 10 of section 2.5: idle and energized, no clock read. -/
theorem test_poll_idle_energized :
    view (exec .poll (at' 1000 (block 3 10 0 0b0010))) = some ⟨3, 10, 0, 0b0010, [], some 1⟩ := by decide

/-! ### Section 2.7, STOP and the accessors -/

theorem test_stop :
    view (exec .stop (at' 0 (block 6 4094 (BitVec.ofInt 16 (-4)) 0b1100))) =
      some ⟨6, 4094, 0, 0, [.apply 0], some 0⟩ := by decide
theorem test_rdpos :
    view (exec .rdpos (at' 0 (block 6 4094 (BitVec.ofInt 16 (-4)) 0b1100))) =
      some ⟨6, 4094, BitVec.ofInt 16 (-4), 0b1100, [], some 0x0FFE⟩ := by decide
theorem test_rdrem :
    view (exec .rdrem (at' 0 (block 6 4094 (BitVec.ofInt 16 (-4)) 0b1100))) =
      some ⟨6, 4094, BitVec.ofInt 16 (-4), 0b1100, [], some 0xFFFC⟩ := by decide

/-! ### Section 2.8, construction -/

/-- Whether a construction fails. -/
def fails (cfgSpr : Count) (cfgInterval : Micros) : Bool :=
  match construct cfgSpr cfgInterval 0 with
  | .ok _ => false
  | .error .invalidConfiguration => true

theorem test_construct_rows :
    fails 4096 1000 = false ∧ fails 1 1 = false ∧ fails 0x7FFF 0xFFFFFFFF = false ∧ fails 0 1000 = true ∧
      fails 4096 0 = true ∧ fails 0 0 = true ∧ fails 0x8000 1000 = true ∧ fails 0xFFFF 1000 = true := by decide

/-- The block after a failed construction. -/
def unconstructed : State := { State.reset with driver := none, lineOe := false, cfgErr := true }

theorem test_failed_reset_takes_the_fault :
    step { State.reset with inputs := [.reset 0 1000 0 false] } = .next unconstructed := by rfl
theorem test_command_after_failed_reset_is_refused :
    refusedAs .notConstructed (step { unconstructed with inputs := [.command 0x30000] }) = true := by decide
theorem test_reserved_word_after_failed_reset_is_refused_as_unconstructed :
    refusedAs .notConstructed (step { unconstructed with inputs := [.command 0x60000] }) = true := by decide
theorem test_reset_leaves_the_fault :
    (step { unconstructed with inputs := [.reset 1 1 0xFFFFFFFF false] }) = .next
      { State.reset with driver := some { block 0 0 0 0 with spr := 1, interval := 1, lastStepTimestamp := 0xFFFFFFFF } } := by rfl

/-! ### The step and the first instruction after reset -/

theorem test_table_words_decode :
    decodeTableWord 24 0x00000 = some .poll ∧ decodeTableWord 24 0x10003 = some (.move 3) ∧
      decodeTableWord 24 0x20000 = some (.moveTo 0) ∧ decodeTableWord 24 0x70000 = none := by decide
/-- P1 line 1: MOVE 3 as the first command after reset. -/
theorem test_move_runs_first_after_reset :
    view (step (State.reset.withFetchWord 24 0x10003)) = some ⟨0, 0, 3, 0b1001, [.apply 0b1001], some 0⟩ := by decide
theorem test_reserved_word_is_refused :
    refusedAs .reservedOpcode (step (State.reset.withFetchWord 24 0x7FFFF)) = true := by decide

/-! ### Witnesses: the hypotheses of each statement, met together -/

/-- A moving block that keeps the invariant: MOVE 2 was given, one line pair is on. -/
def moving : Driver := { block 0 0 2 0b1001 with trace := [.apply 0b1001] }

/-- The same at the other sign and at both edges: phase 0, position 0, one reverse step left. -/
def lastReverse : Driver := { block 0 0 0xFFFF 0b1001 with trace := [.apply 0b1001] }

theorem witness_inv_moving : (at' 1000 moving).Inv := by decide
theorem witness_inv_last_reverse : (at' 1000 lastReverse).Inv := by decide
theorem witness_inv_unconstructed : unconstructed.Inv := by decide
theorem witness_inv_not_vacuous : ¬ (at' 0 (block 0 0 2 0)).Inv := by decide

/-- SetLineOrderDoesNotMatter. -/
theorem witness_line_order : [LineId.d, .a, .c, .b].Perm [.a, .b, .c, .d] := by decide
/-- DecodeAndEncodeAgree: a word that is not the canonical one. -/
theorem witness_word_with_ignored_operand :
    decode (0x3FFFF : CommandWord) = .ok .stop ∧ encode .stop ≠ 0x3FFFF := by decide
/-- OpcodeMapMatchesTheTable: each clause at the edges of its range. -/
theorem witness_opcode_map :
    (0x0FFFF : CommandWord) &&& 0xF0000 = 0x00000 ∧ (0x10000 : CommandWord) &&& 0xF0000 = 0x10000 ∧
      (0x2FFFF : CommandWord) &&& 0xF0000 = 0x20000 ∧ (0x30000 : CommandWord) &&& 0xF0000 = 0x30000 ∧
      (0x4FFFF : CommandWord) &&& 0xF0000 = 0x40000 ∧ (0x5FFFF : CommandWord) &&& 0xF0000 = 0x50000 ∧
      0x60000 ≤ (0x60000 : CommandWord).toNat := by decide
/-- StepRunsTheDecodedCommand. -/
theorem witness_command_presented :
    (State.reset.withFetchWord 24 0x2FFFF).inputs = .command 0x2FFFF :: [] ∧
      decode 0x2FFFF = .ok (.moveTo 0xFFFF) := by decide
/-- TableWordRunsNext. -/
theorem witness_table_word : decodeTableWord 24 0x5FFFF = some .rdrem := by decide
/-- OnlyInputsChangeTheState. -/
theorem witness_nothing_presented_and_clock_presented :
    State.reset.inputs = [] ∧ { State.reset with inputs := [.clock 7] }.inputs = .clock 7 :: [] := by decide
/-- ResetConstructsOrFails and OutputsFollowTheStateMachine: largest and smallest legal, and each way to fail. -/
theorem witness_reset_configurations :
    ¬ ((0x7FFF : Count).toInt ≤ 0 ∨ (0xFFFFFFFF : Micros).toNat = 0) ∧ ¬ ((1 : Count).toInt ≤ 0 ∨ (1 : Micros).toNat = 0) ∧
      (0x8000 : Count).toInt ≤ 0 ∧ (0 : Count).toInt ≤ 0 ∧ (0 : Micros).toNat = 0 := by decide
/-- ResetBetweenCommandsLeavesNoResponse: the reset is presented, and the step answers. -/
theorem witness_reset_between_commands :
    step { (at' 0 moving) with inputs := [.reset 6 10 0 false], rsp := some 1 } = .next
      { State.reset with driver := some { block 0 0 0 0 with spr := 6, interval := 10 } } := by rfl
/-- EveryStepKeepsTheInvariant, ConfigurationIsFixedForLife, DutifulHostIsNeverRefused: a POLL presented to a moving
block, allowed, answered. -/
def polled (d : Driver) : State := { (at' 1000 d) with inputs := [.command 0x00000] }
theorem witness_poll_presented :
    (polled moving).Inv ∧ (polled moving).driver = some moving ∧
      (∀ i ∈ (polled moving).inputs.head?, i.keepsInstance = true) ∧
      (∀ i ∈ (polled moving).inputs.head?, i.allowed moving.spr = true) ∧
      view (step (polled moving)) =
        some ⟨1, 1, 1, 0b0001, [.apply 0b1001, .clockRead 1000, .apply 0b0001], some 0⟩ := by decide
/-- MovingImpliesEnergized, PinsCarryLinesExactlyWhenConstructed. -/
theorem witness_moving_energized : (at' 0 moving).Inv ∧ (at' 0 moving).driver = some moving ∧ moving.idle = false := by decide
/-- RefusedOnlyInTheFourPlaces, RefusalsAreExactlyTheFour: each of the four, at the edge of its range. -/
theorem witness_refusals :
    refusedAs .reservedOpcode (step { (at' 0 moving) with inputs := [.command 0x60000] }) = true ∧
      refusedAs .targetOutOfRange (step { (at' 0 moving) with inputs := [.command 0x21000] }) = true ∧
      refusedAs .targetOutOfRange (step { (at' 0 moving) with inputs := [.command 0x2FFFF] }) = true ∧
      refusedAs .notConstructed (step { unconstructed with inputs := [.command 0xFFFFF] }) = true ∧
      refusedAs .concurrentCommand (step { (at' 0 moving) with inputs := [.overlap 0 0] }) = true ∧
      refusedAs .notConstructed (step { unconstructed with inputs := [.overlap 0 0] }) = true := by decide
/-- UnconstructedBlockRefusesEveryCommand, and the second clauses of the results of MOVE, STOP, RDPOS and RDREM. -/
theorem witness_unconstructed : unconstructed.driver = none := by decide
/-- TargetOutOfRangeIsRefused, at SPR itself. -/
theorem witness_target_at_spr :
    (at' 0 moving).driver = some moving ∧ moving.spr.toNat ≤ (4096 : Count).toNat := by decide
/-- IllFormedTargetIsAlwaysRefused. -/
theorem witness_ill_formed_target :
    (at' 0 moving).driver = some moving ∧ moving.LegalConfig ∧ (Instr.moveTo 0x8000).wf = false := by decide
/-- ConcurrentCommandIsRefused. -/
theorem witness_overlap :
    { (at' 0 moving) with inputs := [.overlap 0x30000 0] }.driver = some moving ∧
      { (at' 0 moving) with inputs := [.overlap 0x30000 0] }.inputs = .overlap 0x30000 0 :: [] := by decide
/-- EveryCommandCompletes: the last target in range. -/
theorem witness_command_in_range :
    (at' 0 moving).driver = some moving ∧ (Instr.moveTo 4095).wfFor moving.spr = true := by decide
/-- MoveToLoadsShorterArc, MoveToCountReachesTheTarget, and each clause: wrap by -SPR, wrap by +SPR, plain difference. -/
theorem witness_moveTo :
    (at' 0 (block 0 100 0 0)).driver = some (block 0 100 0 0) ∧ (block 0 100 0 0).LegalConfig ∧
      (block 0 100 0 0).currentStep.toNat < (block 0 100 0 0).spr.toNat ∧
      (4000 : Count).toNat < (block 0 100 0 0).spr.toNat ∧
      arcOf 4096 100 4000 = -196 ∧ arcOf 4096 4000 100 = 196 ∧ arcOf 4096 0 2047 = 2047 := by decide
/-- HalfRevolutionGoesForward: target below the position. -/
theorem witness_half_revolution :
    (at' 0 (block 0 2048 0 0)).driver = some (block 0 2048 0 0) ∧ (block 0 2048 0 0).LegalConfig ∧
      (block 0 2048 0 0).currentStep.toNat < (block 0 2048 0 0).spr.toNat ∧
      (0 : Count).toNat < (block 0 2048 0 0).spr.toNat ∧
      2 * (((0 : Count).toNat : Int) - (block 0 2048 0 0).currentStep.toNat).natAbs = (block 0 2048 0 0).spr.toNat := by decide
/-- IdlePollTouchesNothing. -/
theorem witness_idle : (at' 0 (block 3 10 0 0b0010)).driver = some (block 3 10 0 0b0010) ∧
    (block 3 10 0 0b0010).remainingSteps = 0 := by decide
/-- EarlyPollOnlyReadsTheClock, one microsecond below INTERVAL. -/
theorem witness_early :
    (at' 999 moving).driver = some moving ∧ moving.remainingSteps ≠ 0 ∧
      ((at' 999 moving).now.toNat + 2 ^ 32 - moving.lastStepTimestamp.toNat) % 2 ^ 32 < moving.interval.toNat := by decide
/-- DuePollTakesOneStep, DuePollMovesThePosition, at equality, for both signs and both ends of the count. -/
theorem witness_due :
    (at' 1000 moving).driver = some moving ∧ moving.remainingSteps ≠ 0 ∧ 0 < moving.spr.toNat ∧
      moving.currentStep.toNat < moving.spr.toNat ∧
      moving.interval.toNat ≤ ((at' 1000 moving).now.toNat + 2 ^ 32 - moving.lastStepTimestamp.toNat) % 2 ^ 32 ∧
      0 < moving.remainingSteps.toInt ∧ ¬ 0 < lastReverse.remainingSteps.toInt ∧ lastReverse.remainingSteps ≠ 0 := by decide
/-- PollAnswersWhetherIdle, StopHaltsAndDeenergizes, RdposAnswersThePosition, RdremAnswersTheSignedCount,
MoveLoadsDeltaAndPowersUp. -/
theorem witness_constructed : (at' 0 lastReverse).driver = some lastReverse ∧ (at' 0 lastReverse).Inv := by decide
/-- FrameOfMoveMovetoStop, FrameOfPoll, FrameOfAccessors, PowerUpAfterStopRestoresThePhase: each answers a next state. -/
theorem witness_frames :
    (view (exec (.move 5) (at' 1000 moving))).isSome = true ∧ (view (exec (.moveTo 5) (at' 1000 moving))).isSome = true ∧
      (view (exec .stop (at' 1000 moving))).isSome = true ∧ (view (exec .poll (at' 1000 moving))).isSome = true ∧
      (view (exec .rdpos (at' 1000 moving))).isSome = true ∧ (view (exec .rdrem (at' 1000 moving))).isSome = true ∧
      (block 0 0 0 0).idle = true ∧ moving.due 999 = false := by decide
/-- ElapsedSurvivesTheClockWrap: a step found due across the wrap. -/
theorem witness_elapsed_across_wrap :
    (272 : BitVec 32) ≤ elapsed ((0xFFFFFF00 : BitVec 32) + BitVec.ofNat 32 272) 0xFFFFFF00 := by decide
/-- PositionsMoveModuloSprAtEveryWidth: at width 3 the last position and the first, SPR above half the range. -/
theorem witness_positions_at_width_three :
    (4 : BitVec 3).toNat < (5 : BitVec 3).toNat ∧ (4 : BitVec 3).toNat + 1 = (5 : BitVec 3).toNat ∧
      (0 : BitVec 3).toNat < (5 : BitVec 3).toNat := by decide
/-- ShorterArcFitsEveryWidth: at width 4 the largest legal SPR and the farthest pair; at width 2 the one legal SPR. -/
theorem witness_arc_at_small_widths :
    (7 : BitVec 4).toNat < 2 ^ (4 - 1) ∧ (0 : BitVec 4).toNat < (7 : BitVec 4).toNat ∧
      (6 : BitVec 4).toNat < (7 : BitVec 4).toNat ∧ (1 : BitVec 2).toNat < 2 ^ (2 - 1) ∧
      (0 : BitVec 2).toNat < (1 : BitVec 2).toNat := by decide
/-- ForwardStepsArePeriodic: SPR = 6, the last position. -/
theorem witness_periodic : ({ block 0 5 0 0 with spr := 6 } : Driver).currentStep.toNat <
    ({ block 0 5 0 0 with spr := 6 } : Driver).spr.toNat := by decide

/-- MOVE 2 presented, then two polls, each INTERVAL after the step before. -/
def walked : State :=
  { State.reset with inputs := .command (encode (.move 2)) :: (pollAt [1000, 2000] ++ []) }
/-- MoveIsWalkedStepByStep. -/
theorem witness_walk :
    walked.driver = some (block 0 0 0 0) ∧ (block 0 0 0 0).LegalConfig ∧
      (block 0 0 0 0).currentStep.toNat < (block 0 0 0 0).spr.toNat ∧
      [(1000 : Micros), 2000].length = (2 : Count).toInt.natAbs := by decide
theorem witness_walk_spaced : Spaced 1000 0 [1000, 2000] := ⟨by decide, by decide, trivial⟩

/-- StepsAreNeverCloserThanInterval, first step: the state after it. -/
def stepped : Driver := { block 1 1 1 0b0001 with lastStepTimestamp := 1000, trace := [.apply 0b1001, .clockRead 1000, .apply 0b0001] }
/-- Two polls of the moving block with a clock change between them. -/
def twoPolls : State := { (at' 1000 moving) with inputs := [.command 0, .clock 2000, .command 0] }
def afterFirst : State := { (at' 1000 stepped) with inputs := [.clock 2000, .command 0], rsp := some 0 }
def beforeSecond : State := { (at' 2000 stepped) with inputs := [.command 0], rsp := some 0 }
def afterSecond : State :=
  { (at' 2000 { stepped with phase := 2, currentStep := 2, remainingSteps := 0, lastStepTimestamp := 2000, lines := 0
                             trace := stepped.trace ++ [.clockRead 2000, .apply 0b0011, .apply 0] }) with
    inputs := [], rsp := some 1 }
theorem witness_first_step : step twoPolls = .next afterFirst := by rfl
theorem witness_quiet : QuietRun afterFirst beforeSecond :=
  .tail (t := afterFirst) (d := stepped) (e := stepped) (.refl _) rfl (by decide) (by rfl) rfl rfl
theorem witness_second_step : step beforeSecond = .next afterSecond := by rfl
theorem witness_both_move_the_phase : (1 : Phase) ≠ 0 ∧ (2 : Phase) ≠ 1 := by decide

end Sys2Proof.Tests
end

section
/-! PROOFS. The family of spec/10_state.md: the invariant of R23, the frames of the commands (R24), and the reset
state. A driver keeps `Driver.Consistent` under each of the five things that a command can do to it; the invariant of
the machine is that predicate and the two status bits. -/

namespace Sys2Proof.Machine

/-! ### A consistent driver -/

/-- What the invariant says of a driver alone, without the status bits: R23 (b), (c), (d), (f) and R18. -/
structure Driver.Consistent (d : Driver) : Prop where
  legal : d.LegalConfig
  inRange : d.InRange
  followsTrace : d.LinesFollowTrace

/-- The invariant on a constructed block: the two status bits, and a consistent driver. -/
theorem State.inv_iff_consistent {s : State} {d : Driver} (hd : s.driver = some d) :
    s.Inv ↔ s.lineOe = true ∧ s.cfgErr = false ∧ d.Consistent := by
  constructor
  · rintro ⟨present, -⟩
    obtain ⟨oe, err, legal, inRange, follows⟩ := present d hd
    exact ⟨oe, err, legal, inRange, follows⟩
  · rintro ⟨oe, err, legal, inRange, follows⟩
    refine ⟨fun e he => ?_, fun hnone => by simp [hd] at hnone⟩
    obtain rfl : d = e := Option.some.inj (hd.symm.trans he)
    exact ⟨oe, err, legal, inRange, follows⟩

theorem Driver.Consistent.currentStep_lt {d : Driver} (hd : d.Consistent) : d.currentStep.toNat < d.spr.toNat :=
  hd.inRange.1

/-- Reading the clock leaves every register. -/
theorem Driver.Consistent.readClock {d : Driver} (hd : d.Consistent) (t : Micros) : (d.readClock t).Consistent where
  legal := hd.legal
  inRange := hd.inRange
  followsTrace := by simpa [Driver.LinesFollowTrace] using hd.followsTrace

/-- Loading any count is consistent once the pattern of the phase is applied. -/
theorem Driver.Consistent.powerUp_load {d : Driver} (hd : d.Consistent) (n : Count) :
    (d.load n).powerUp.Consistent where
  legal := hd.legal
  inRange := ⟨hd.currentStep_lt, by simp, by simp⟩
  followsTrace := by simp [Driver.LinesFollowTrace]

/-- The lines may go low where no steps are left. -/
theorem Driver.Consistent.powerDown {d : Driver} (legal : d.LegalConfig) (position : d.currentStep.toNat < d.spr.toNat)
    (idle : d.remainingSteps = 0) : d.powerDown.Consistent where
  legal := legal
  inRange := ⟨position, by simp, by simp [idle]⟩
  followsTrace := by simp [Driver.LinesFollowTrace]

/-- A step in either direction leaves the position below SPR. -/
theorem Driver.takeStep_currentStep_lt {d : Driver} (h : d.currentStep.toNat < d.spr.toNat) (t : Micros) :
    (d.takeStep t).currentStep.toNat < (d.takeStep t).spr.toNat := by
  cases hf : d.forward with
  | true =>
    simp only [takeStep_currentStep, takeStep_spr, hf, if_true, nextPosition_toNat h]
    exact Nat.mod_lt _ (by omega)
  | false =>
    simp only [takeStep_currentStep, takeStep_spr, hf, Bool.false_eq_true, if_false, prevPosition_toNat h]
    split <;> omega

/-- A step in either direction leaves the lines at the pattern of the new phase. -/
theorem Driver.takeStep_lines_eq_pat (d : Driver) (t : Micros) : (d.takeStep t).lines = pat (d.takeStep t).phase := by
  cases hf : d.forward <;> simp [hf]

theorem Driver.Consistent.takeStep {d : Driver} (hd : d.Consistent) (t : Micros) : (d.takeStep t).Consistent where
  legal := by simpa [Driver.LegalConfig] using hd.legal
  inRange :=
    have lines := d.takeStep_lines_eq_pat t
    ⟨takeStep_currentStep_lt hd.currentStep_lt t, .inr lines, fun _ => lines⟩
  followsTrace := by cases hf : d.forward <;> simp [Driver.LinesFollowTrace, hf]

/-- Completion powers down only where no steps are left (R87). -/
theorem Driver.Consistent.finish {d : Driver} (hd : d.Consistent) : d.finish.Consistent := by
  cases hi : d.idle with
  | true => simpa [Driver.finish, hi] using Consistent.powerDown hd.legal hd.currentStep_lt (idle_iff.1 hi)
  | false => simpa [Driver.finish, hi] using hd

/-- A positive signed value is its unsigned value, and has its top bit clear. -/
theorem toNat_range_of_toInt_pos {w : Nat} {x : BitVec w} (h : 0 < x.toInt) :
    0 < x.toNat ∧ x.toNat < 2 ^ (w - 1) := by
  have hx : x.toInt = x.toNat := BitVec.toInt_eq_toNat_of_lt (BitVec.toInt_pos_iff.1 h.le)
  have top : x.toInt < 2 ^ (w - 1) := BitVec.toInt_lt
  rw [hx] at h top
  exact_mod_cast And.intro h top

/-- What a construction leaves is consistent. -/
theorem consistent_of_construct {cfgSpr : Count} {cfgInterval lastReset : Micros} {d : Driver}
    (h : construct cfgSpr cfgInterval lastReset = .ok d) : d.Consistent := by
  obtain ⟨⟨hspr, hinterval⟩, rfl⟩ := construct_ok.1 h
  obtain ⟨low, high⟩ := toNat_range_of_toInt_pos hspr
  have positive : 0 < cfgInterval.toNat := Nat.pos_of_ne_zero fun h0 => hinterval (BitVec.eq_of_toNat_eq h0)
  exact ⟨⟨low, high, positive⟩, ⟨low, .inl rfl, fun moving => absurd rfl moving⟩, rfl⟩

/-! ### What every command keeps -/

/-- What a command that answers a next state does to the driver: nothing, a clock read, a due step, a load with
power-up, or the halt. Outside the driver it writes the response alone. -/
theorem exec_effect {i : Instr} {s t : State} {d : Driver} (hd : s.driver = some d) (h : exec i s = .next t) :
    ∃ e r, t = s.complete e r ∧
      (e = d ∨
       e = d.readClock s.now ∨
       (i = .poll ∧ d.idle = false ∧ d.due s.now = true ∧ e = ((d.readClock s.now).takeStep s.now).finish) ∨
       (∃ n, e = (d.load n).powerUp) ∨
       e = (d.load 0).powerDown) := by
  obtain ⟨d', e, r, hd', ht, effect⟩ := exec_next h
  obtain rfl : d = d' := Option.some.inj (hd.symm.trans hd')
  refine ⟨e, r, ht, ?_⟩
  rcases effect with ⟨-, -, same, -⟩ | ⟨-, -, -, early, -⟩ | ⟨hi, hidle, hdue, step, -⟩ | ⟨n, -, move, -⟩ |
    ⟨n, -, -, -, moveTo⟩ | ⟨-, stop, -⟩ | ⟨-, same, -⟩ | ⟨-, same, -⟩
  · exact .inl same
  · exact .inr (.inl early)
  · exact .inr (.inr (.inl ⟨hi, hidle, hdue, step⟩))
  · exact .inr (.inr (.inr (.inl ⟨n, move⟩)))
  · exact .inr (.inr (.inr (.inl ⟨_, moveTo⟩)))
  · exact .inr (.inr (.inr (.inr stop)))
  · exact .inl same
  · exact .inl same

/-- A command keeps the driver, with its SPR and INTERVAL. -/
theorem exec_keeps_config {i : Instr} {s t : State} {d : Driver} (hd : s.driver = some d) (h : exec i s = .next t) :
    ∃ e r, t = s.complete e r ∧ e.spr = d.spr ∧ e.interval = d.interval := by
  obtain ⟨e, r, ht, effect⟩ := exec_effect hd h
  refine ⟨e, r, ht, ?_⟩
  rcases effect with rfl | rfl | ⟨-, -, -, rfl⟩ | ⟨n, rfl⟩ | rfl <;> simp

theorem exec_keeps_consistent {i : Instr} {s t : State} {d : Driver} (hd : s.driver = some d) (hc : d.Consistent)
    (h : exec i s = .next t) : ∃ e r, t = s.complete e r ∧ e.Consistent := by
  obtain ⟨e, r, ht, effect⟩ := exec_effect hd h
  refine ⟨e, r, ht, ?_⟩
  rcases effect with rfl | rfl | ⟨-, -, -, rfl⟩ | ⟨n, rfl⟩ | rfl
  · exact hc
  · exact hc.readClock _
  · exact ((hc.readClock _).takeStep _).finish
  · exact hc.powerUp_load n
  · exact Driver.Consistent.powerDown hc.legal hc.currentStep_lt rfl

theorem exec_keeps_inv {i : Instr} {s t : State} (hs : s.Inv) (h : exec i s = .next t) : t.Inv := by
  obtain ⟨d, -, -, hd, -⟩ := exec_next h
  obtain ⟨oe, err, hc⟩ := (State.inv_iff_consistent hd).1 hs
  obtain ⟨e, r, rfl, he⟩ := exec_keeps_consistent hd hc h
  exact (State.inv_iff_consistent (s.complete_driver e r)).2 ⟨oe, err, he⟩

/-- A reset establishes the invariant, whatever stood before. -/
theorem execReset_inv {cfgSpr : Count} {cfgInterval lastReset : Micros} {midCommand : Bool} {s t : State}
    (h : execReset cfgSpr cfgInterval lastReset midCommand s = .next t) : t.Inv := by
  rcases execReset_cases cfgSpr cfgInterval lastReset midCommand s with ⟨-, hr⟩ | ⟨d, hd, hr⟩
  · cases hr.symm.trans h
    exact ⟨by simp, fun _ => rfl⟩
  · cases hr.symm.trans h
    exact (State.inv_iff_consistent (State.install_driver _ d)).2 ⟨rfl, rfl, consistent_of_construct hd⟩

theorem step_keeps_inv {s t : State} (hs : s.Inv) (h : step s = .next t) : t.Inv := by
  rcases step_next h with ⟨-, rfl⟩ | ⟨w, i, rest, -, -, hexec⟩ | ⟨m, rest, -, rfl⟩ | ⟨c, v, l, m, rest, -, hreset⟩
  · exact hs
  · exact exec_keeps_inv (s := s.takeInput rest) hs hexec
  · exact hs
  · exact execReset_inv hreset

/-- A step that takes no reset keeps the driver, with its SPR and INTERVAL (R23 (e)). -/
theorem step_keeps_config {s t : State} {d : Driver} (keeps : ∀ i ∈ s.inputs.head?, i.keepsInstance = true)
    (hd : s.driver = some d) (h : step s = .next t) :
    ∃ e, t.driver = some e ∧ e.spr = d.spr ∧ e.interval = d.interval := by
  rcases step_next h with ⟨-, rfl⟩ | ⟨w, i, rest, -, -, hexec⟩ | ⟨m, rest, -, rfl⟩ | ⟨c, v, l, m, rest, hin, -⟩
  · exact ⟨d, hd, rfl, rfl⟩
  · obtain ⟨e, r, rfl, config⟩ := exec_keeps_config (s := s.takeInput rest) hd hexec
    exact ⟨e, rfl, config⟩
  · exact ⟨d, hd, rfl, rfl⟩
  · simp [hin, HostInput.keepsInstance] at keeps

/-- Settles O16: the step takes nothing, a command, a clock change or a reset, and each leaves a consistent driver. -/
theorem everyStepKeepsTheInvariant : Obligations.EveryStepKeepsTheInvariant :=
  fun _ _ hs h => ⟨step_keeps_inv hs h, fun keeps _ hd => step_keeps_config keeps hd h⟩

/-! ### What the single commands leave unchanged -/

/-- MOVE, MOVETO and STOP load a count and write the lines once. -/
theorem exec_load_apply {i : Instr} {s t : State} {d : Driver} (hi : ∃ n, i = .move n ∨ i = .moveTo n ∨ i = .stop)
    (hd : s.driver = some d) (h : exec i s = .next t) : ∃ n v, t = s.complete ((d.load n).apply v) 0 := by
  obtain ⟨d', e, r, hd', rfl, effect⟩ := exec_next h
  obtain rfl : d = d' := Option.some.inj (hd.symm.trans hd')
  obtain ⟨n, rfl | rfl | rfl⟩ := hi
  · obtain ⟨rfl, rfl⟩ : e = (d.load n).powerUp ∧ r = 0 := by simpa using effect
    exact ⟨n, _, rfl⟩
  · obtain ⟨-, rfl, rfl⟩ : _ ∧ r = 0 ∧ e = (d.load _).powerUp := by simpa using effect
    exact ⟨_, _, rfl⟩
  · obtain ⟨rfl, rfl⟩ : e = (d.load 0).powerDown ∧ r = 0 := by simpa using effect
    exact ⟨0, 0, rfl⟩

/-- Settles O40: loading and applying leave the other registers, and applying adds the one event. -/
theorem frameOfMoveMovetoStop : Obligations.FrameOfMoveMovetoStop := by
  intro s t d i hi hd h
  obtain ⟨n, v, rfl⟩ := exec_load_apply hi hd h
  exact ⟨_, rfl, rfl, rfl, rfl, rfl, rfl, ⟨v, rfl⟩, rfl, rfl, rfl, rfl, rfl⟩

/-- POLL on a driver: idle it touches nothing, not due it reads the clock, due it takes a step. -/
theorem exec_poll_next {s t : State} {d : Driver} (hd : s.driver = some d) (h : exec .poll s = .next t) :
    (d.idle = true ∧ t = s.complete d 1) ∨
    (d.idle = false ∧ d.due s.now = false ∧ t = s.complete (d.readClock s.now) 0) ∨
    (d.idle = false ∧ d.due s.now = true ∧ ∃ r, t = s.complete ((d.readClock s.now).takeStep s.now).finish r) := by
  obtain ⟨d', e, r, hd', rfl, effect⟩ := exec_next h
  obtain rfl : d = d' := Option.some.inj (hd.symm.trans hd')
  rcases effect with ⟨-, hi, rfl, rfl⟩ | ⟨-, hi, hu, rfl, rfl⟩ | ⟨-, hi, hu, rfl, -⟩ | other
  · exact .inl ⟨hi, rfl⟩
  · exact .inr (.inl ⟨hi, hu, rfl⟩)
  · exact .inr (.inr ⟨hi, hu, r, rfl⟩)
  · simp at other

/-- A step and its completion only append events. -/
theorem Driver.finish_takeStep_trace_append (d : Driver) (t : Micros) :
    ∃ events, (d.takeStep t).finish.trace = d.trace ++ events := by
  cases hf : d.forward <;> cases hi : (d.takeStep t).idle <;> simp [hf, hi]

/-- POLL appends to the trace, and writes a register only where it takes a step (R80, R84). -/
theorem exec_poll_trace_and_registers {s t : State} {d e : Driver} (hd : s.driver = some d) (he : t.driver = some e)
    (h : exec .poll s = .next t) :
    (∃ events, e.trace = d.trace ++ events) ∧
      ((d.idle = true ∨ d.due s.now = false) → e = { d with trace := e.trace }) := by
  rcases exec_poll_next hd h with ⟨-, rfl⟩ | ⟨-, -, rfl⟩ | ⟨hidle, hdue, r, rfl⟩
  · cases he
    exact ⟨⟨[], by simp⟩, fun _ => rfl⟩
  · cases he
    exact ⟨⟨_, rfl⟩, fun _ => rfl⟩
  · cases he
    obtain ⟨events, htrace⟩ := (d.readClock s.now).finish_takeStep_trace_append s.now
    refine ⟨⟨.clockRead s.now :: events, ?_⟩, by simp [hidle, hdue]⟩
    rw [htrace, Driver.readClock_trace, List.append_assoc, List.singleton_append]

/-- Settles O41: POLL is a command, which keeps the configuration and all outside the driver; its trace and its
registers are its own. -/
theorem frameOfPoll : Obligations.FrameOfPoll := by
  intro s t d hd h
  obtain ⟨e, r, rfl, hspr, hinterval⟩ := exec_keeps_config hd h
  obtain ⟨htrace, hregs⟩ := exec_poll_trace_and_registers hd (s.complete_driver e r) h
  exact ⟨e, rfl, hspr, hinterval, htrace, hregs, rfl, rfl, rfl, rfl, rfl⟩

/-- Settles O42: the accessors put back the driver they found. -/
theorem frameOfAccessors : Obligations.FrameOfAccessors := by
  intro s t i hi h
  obtain ⟨d, e, r, hd, rfl, effect⟩ := exec_next h
  have same : e = d := by
    rcases hi with rfl | rfl
    · exact (show e = d ∧ r = d.currentStep by simpa using effect).1
    · exact (show e = d ∧ r = d.remainingSteps by simpa using effect).1
  simp [State.complete, same, hd]

/-- A command that is not a due POLL keeps phase, position and timestamp. -/
theorem exec_keeps_motor {i : Instr} {s t : State} {d e : Driver} (hd : s.driver = some d) (he : t.driver = some e)
    (h : exec i s = .next t) :
    (e.phase = d.phase ∧ e.currentStep = d.currentStep ∧ e.lastStepTimestamp = d.lastStepTimestamp) ∨
    (i = .poll ∧ d.idle = false ∧ d.due s.now = true ∧ e.lastStepTimestamp = s.now) := by
  obtain ⟨e', r, rfl, effect⟩ := exec_effect hd h
  obtain rfl : e' = e := Option.some.inj he
  rcases effect with rfl | rfl | ⟨hi, hidle, hdue, rfl⟩ | ⟨n, rfl⟩ | rfl
  · exact .inl ⟨rfl, rfl, rfl⟩
  · exact .inl ⟨rfl, rfl, rfl⟩
  · exact .inr ⟨hi, hidle, hdue, by simp⟩
  · exact .inl ⟨rfl, rfl, rfl⟩
  · exact .inl ⟨rfl, rfl, rfl⟩

/-- Settles O43: every other effect of a command keeps the three registers. -/
theorem onlyADuePollStepsTheMotor : Obligations.OnlyADuePollStepsTheMotor := by
  intro s t d e i hd he h changed
  rcases exec_keeps_motor hd he h with ⟨phase, position, timestamp⟩ | ⟨hi, hidle, hdue, timestamp⟩
  · simp [phase, position, timestamp] at changed
  · exact ⟨hi, by simpa [Driver.idle] using hidle, Driver.due_iff.1 hdue, timestamp⟩

/-! ### The reset state, and what the invariant says of the lines and the pins -/

/-- Settles O14: the configuration is legal, so the construction is the record it builds. -/
theorem resetStateIsAConstruction : Obligations.ResetStateIsAConstruction :=
  ⟨_, construct_ok.2 ⟨by decide, rfl⟩, rfl⟩

/-- Settles O15: the driver of the reset state is constructed, and so consistent. -/
theorem resetStateSatisfiesInvariant : Obligations.ResetStateSatisfiesInvariant := by
  obtain ⟨d, hd, hreset⟩ := resetStateIsAConstruction
  unfold Obligations.ResetStateSatisfiesInvariant
  rw [hreset]
  exact (State.inv_iff_consistent rfl).2 ⟨rfl, rfl, consistent_of_construct hd⟩

/-- Settles O17: a moving block holds the pattern of its phase, and no pattern is all-low. -/
theorem movingImpliesEnergized : Obligations.MovingImpliesEnergized := by
  intro s d hs hd hidle
  obtain ⟨-, -, hc⟩ := (State.inv_iff_consistent hd).1 hs
  obtain ⟨-, -, moving⟩ := hc.inRange
  have hlines : d.lines = pat d.phase := moving (by simpa [Driver.idle] using hidle)
  simpa [Driver.energized, hlines] using pat_ne_zero d.phase

/-- Settles O18: LINE_OE is 1 with a driver and 0 without one. -/
theorem pinsCarryLinesExactlyWhenConstructed : Obligations.PinsCarryLinesExactlyWhenConstructed := by
  intro s hs
  constructor
  · intro d hd
    obtain ⟨oe, -⟩ := (State.inv_iff_consistent hd).1 hs
    simp [State.pins, oe, hd]
  · intro hnone
    simp [State.pins, hs.2 hnone]

end Sys2Proof.Machine
end

section
/-! PROOFS. The family of spec/20_memory.md: the output lines under `setLine` (R33, R34), and the step on a command
word (R40). What a line reads after a `setLine` of the same or of another line is said once; a fold of `setLine` calls
follows by induction on the list, and no order of the four lines is singled out. -/

namespace Sys2Proof.Machine

/-! ### Reading a line after `setLine` calls -/

/-- The written line takes the level, and every other line keeps its own (R33). -/
theorem lineLevel_setLine (id other : LineId) (level : Bool) (v : Levels) :
    lineLevel (setLine id level v) other = if other = id then level else lineLevel v other := by
  cases id <;> cases other <;> cases level <;> simp [lineLevel, setLine, LineId.bit]

/-- Levels that agree on the four lines are equal (R18, R53). -/
theorem levels_ext {v w : Levels} (h : ∀ id, lineLevel v id = lineLevel w id) : v = w := by
  refine BitVec.eq_of_getLsbD_eq fun k hk => ?_
  have hk : k = 0 ∨ k = 1 ∨ k = 2 ∨ k = 3 := by omega
  rcases hk with rfl | rfl | rfl | rfl
  · exact h .d
  · exact h .c
  · exact h .b
  · exact h .a

/-- Writing lines of `v` one after another leaves the level of `v` on every line written, and the old one elsewhere. -/
theorem lineLevel_foldl_setLine (v : Levels) (id : LineId) (order : List LineId) (old : Levels) :
    lineLevel (order.foldl (fun levels id => setLine id (lineLevel v id) levels) old) id =
      if id ∈ order then lineLevel v id else lineLevel old id := by
  induction order generalizing old with
  | nil => simp
  | cons first rest ih =>
    rw [List.foldl_cons, ih, lineLevel_setLine]
    by_cases hfirst : id = first <;> simp [hfirst]

/-- Settles O3: every order writes each of the four lines, so each line ends at the level of `v`. -/
theorem setLineOrderDoesNotMatter : Obligations.SetLineOrderDoesNotMatter := by
  intro order hperm v old
  refine levels_ext fun id => ?_
  have written : id ∈ order := hperm.mem_iff.2 (by cases id <;> simp)
  rw [lineLevel_foldl_setLine, if_pos written]

/-! ### The step on a command word -/

/-- Settles O9: the step takes the word presented and branches on what the decoder says of it (R40). -/
theorem stepRunsTheDecodedCommand : Obligations.StepRunsTheDecodedCommand := by
  intro s w i rest presented decodes
  simp only [step, presented, decodes, State.takeInput]

end Sys2Proof.Machine
end

section
/-! PROOFS. The family of spec/30_encoding.md: decode and encode (R46, R47, R55, R56), and the four places where a step
refuses (R57). What it takes for a word to decode is said once, by the two fields of the word; decode and encode, the
masks of the opcode table and the ranges of R57 follow from it. -/

namespace Sys2Proof

/-! ### A word by its two fields -/

/-- Words with the same opcode field and the same operand field are equal (R46). -/
theorem CommandWord.ext_fields {v w : CommandWord} (op : CommandWord.op v = CommandWord.op w)
    (arg : CommandWord.arg v = CommandWord.arg w) : v = w :=
  BitVec.eq_of_toNat_eq (by rw [toNat_eq v, toNat_eq w, op, arg])

@[simp] theorem op_encode (i : Instr) : CommandWord.op (encode i) = i.opcode :=
  (Laws.EncodedFields.fields_of_append i.opcode i.operand).1

@[simp] theorem arg_encode (i : Instr) : CommandWord.arg (encode i) = i.operand :=
  (Laws.EncodedFields.fields_of_append i.opcode i.operand).2

/-- The operand field is the word as a number, truncated to SW bits. -/
theorem CommandWord.ofNat_toNat (w : CommandWord) : BitVec.ofNat Config.SW w.toNat = CommandWord.arg w :=
  BitVec.eq_of_toNat_eq (by rw [BitVec.toNat_ofNat, arg_toNat])

/-- The opcode field of a bitwise conjunction is that of the fields. -/
theorem CommandWord.op_and (v w : CommandWord) :
    CommandWord.op (v &&& w) = CommandWord.op v &&& CommandWord.op w :=
  BitVec.extractLsb'_and

/-- The mask of the opcode table leaves the opcode: a word masked to `op` above zeros has the opcode `op` (the words of
SW = 16). -/
theorem CommandWord.op_of_mask {w : CommandWord} {op : Opcode} (h : w &&& 0xF0000 = op ++ (0 : Count)) :
    CommandWord.op w = op := by
  have mask : CommandWord.op (0xF0000 : CommandWord) = BitVec.allOnes 4 := by decide
  calc CommandWord.op w
      = CommandWord.op (w &&& 0xF0000) := by rw [op_and, mask, BitVec.and_allOnes]
    _ = op := by rw [h, (Laws.EncodedFields.fields_of_append op 0).1]

/-! ### Decode and encode -/

/-- A word decodes to a command exactly when it has the command's opcode, and its operand unless the command ignores
the operand bits (R47, R55). -/
theorem decode_ok {w : CommandWord} {i : Instr} :
    decode w = .ok i ↔ CommandWord.op w = i.opcode ∧
      (i.operand = CommandWord.arg w ∨ i ∈ [Instr.poll, .stop, .rdpos, .rdrem]) := by
  constructor
  · intro h
    unfold decode at h
    split at h
    case h_7 => cases h
    all_goals
      next hop =>
        cases h
        exact ⟨BitVec.eq_of_toNat_eq hop, by simp [Instr.operand]⟩
  · rintro ⟨hop, hfield⟩
    unfold decode
    rw [hop]
    cases i with
    | poll | stop | rdpos | rdrem => rfl
    | move delta | moveTo target =>
      obtain rfl : _ = CommandWord.arg w := by simpa [Instr.operand] using hfield
      rfl

/-- A command that ignores its operand bits is written with operand 0, so its word is the opcode field alone. -/
theorem encode_eq_clearArg {w : CommandWord} {i : Instr} (hi : i ∈ [Instr.poll, .stop, .rdpos, .rdrem])
    (hop : CommandWord.op w = i.opcode) : encode i = w >>> Config.SW <<< Config.SW := by
  have zero : i.operand.toNat = 0 := by
    fin_cases hi <;> rfl
  refine BitVec.eq_of_toNat_eq ?_
  rw [CommandWord.toNat_clearArg, hop, CommandWord.toNat_eq (encode i), op_encode, arg_encode, zero, Nat.add_zero]

/-- Settles O6: the canonical word has the fields `decode_ok` asks for, and a word that decodes has the command's
fields, or its opcode above bits that are ignored. -/
theorem decodeAndEncodeAgree : Obligations.DecodeAndEncodeAgree := by
  refine ⟨fun i => decode_ok.2 ⟨op_encode i, .inl (arg_encode i).symm⟩, fun w i h => ?_⟩
  obtain ⟨hop, hfield⟩ := decode_ok.1 h
  rcases hfield with harg | ignored
  · exact .inl (CommandWord.ext_fields (by rw [op_encode, hop]) (by rw [arg_encode, harg]))
  · exact .inr ⟨ignored, encode_eq_clearArg ignored hop⟩

/-- The decoder rejects exactly the words from opcode 6 on (R56). -/
theorem decode_error_range {w : CommandWord} : (∃ e, decode w = .error e) ↔ 6 * 2 ^ Config.SW ≤ w.toNat := by
  simp [decode_error, CommandWord.le_op_iff]

/-- Settles O7: the mask leaves the opcode field, and the operand is the low bits of the word. -/
theorem opcodeMapMatchesTheTable : Obligations.OpcodeMapMatchesTheTable := by
  intro w
  rw [CommandWord.ofNat_toNat]
  refine ⟨fun h => ?poll, fun h => ?move, fun h => ?moveTo, fun h => ?stop, fun h => ?rdpos, fun h => ?rdrem,
    fun h => ?reserved⟩
  case poll => exact decode_ok.2 ⟨CommandWord.op_of_mask (op := 0) h, by simp⟩
  case move => exact decode_ok.2 ⟨CommandWord.op_of_mask (op := 1) h, .inl rfl⟩
  case moveTo => exact decode_ok.2 ⟨CommandWord.op_of_mask (op := 2) h, .inl rfl⟩
  case stop => exact decode_ok.2 ⟨CommandWord.op_of_mask (op := 3) h, by simp⟩
  case rdpos => exact decode_ok.2 ⟨CommandWord.op_of_mask (op := 4) h, by simp⟩
  case rdrem => exact decode_ok.2 ⟨CommandWord.op_of_mask (op := 5) h, by simp⟩
  case reserved =>
    have name : BitVec.ofNat 4 (w.toNat / 0x10000) = CommandWord.op w := by
      rw [← Config.two_pow_SW, ← CommandWord.op_toNat, BitVec.ofNat_toNat, BitVec.setWidth_eq]
    exact decode_error.2 ⟨(CommandWord.le_op_iff w 6).2 h, by rw [name]⟩

/-- The words that decode to MOVETO of a target at or above `n`, as a range. -/
theorem decode_moveTo_range {w : CommandWord} {n : Nat} :
    (∃ target, decode w = .ok (.moveTo target) ∧ n ≤ target.toNat) ↔
      2 * 2 ^ Config.SW + n ≤ w.toNat ∧ w.toNat < 3 * 2 ^ Config.SW := by
  have whole := CommandWord.toNat_eq w
  have small := (CommandWord.arg w).isLt
  constructor
  · rintro ⟨target, h, hn⟩
    obtain ⟨hop, hfield⟩ := decode_ok.1 h
    obtain rfl : target = CommandWord.arg w := by simpa [Instr.operand] using hfield
    have two : (CommandWord.op w).toNat = 2 := by rw [hop]; rfl
    rw [two] at whole
    omega
  · rintro ⟨low, high⟩
    have two : (CommandWord.op w).toNat = 2 := by
      have := (CommandWord.le_op_iff w 2).2 (by omega)
      have := mt (CommandWord.le_op_iff w 3).1 (by omega)
      omega
    rw [two] at whole
    exact ⟨CommandWord.arg w, decode_ok.2 ⟨BitVec.eq_of_toNat_eq two, .inl rfl⟩, by omega⟩

/-- A table word decodes as the command word in its low bits does (log entry 12). -/
theorem decodeTableWord_eq_some {nbits w : Nat} {i : Instr} :
    decodeTableWord nbits w = some i ↔ decode (CommandWord.ofBits w) = .ok i := by
  unfold decodeTableWord
  split <;> simp_all

/-- A MOVETO target that is not well formed has its top bit set (R49). -/
theorem wf_moveTo_eq_false {target : Count} :
    (Instr.moveTo target).wf = false ↔ 2 ^ (Config.SW - 1) ≤ target.toNat := by
  simp [Instr.wf]

end Sys2Proof

namespace Sys2Proof.Machine

/-! ### Where a step is refused -/

/-- A command is refused for want of a driver, or as a MOVETO to a target out of range (R122, R70). -/
theorem exec_refused {i : Instr} {s : State} {r : Refusal} :
    exec i s = .refused r ↔ (s.driver = none ∧ r = .notConstructed) ∨
      ∃ d, s.driver = some d ∧ (∃ target, i = .moveTo target ∧ d.spr.toNat ≤ target.toNat) ∧ r = .targetOutOfRange := by
  cases i
  all_goals refine State.withDriver_refused.trans (or_congr_right (exists_congr fun d => ?_))
  case poll => cases d.idle <;> cases d.due s.now <;> simp
  case moveTo target => by_cases out : d.spr.toNat ≤ target.toNat <;> simp [zext, out, eq_comm]
  all_goals simp

/-- A word the decoder rejects is refused, for want of a driver or as reserved (R122, R56). -/
theorem rejectWord_refused {e : DecodeError} {s : State} {r : Refusal} :
    rejectWord e s = .refused r ↔ (s.driver = none ∧ r = .notConstructed) ∨
      ∃ d, s.driver = some d ∧ r = .reservedOpcode := by
  cases e
  exact State.withDriver_refused.trans (by simp [eq_comm])

/-- Overlapping commands are refused, for want of a driver or as such (R122, R149). -/
theorem rejectOverlap_refused {s : State} {r : Refusal} :
    rejectOverlap s = .refused r ↔ (s.driver = none ∧ r = .notConstructed) ∨
      ∃ d, s.driver = some d ∧ r = .concurrentCommand := by
  exact State.withDriver_refused.trans (by simp [eq_comm])

/-- A reset is never refused. -/
theorem execReset_ne_refused (cfgSpr : Count) (cfgInterval lastReset : Micros) (midCommand : Bool) (s : State)
    (r : Refusal) : execReset cfgSpr cfgInterval lastReset midCommand s ≠ .refused r := by
  rcases execReset_cases cfgSpr cfgInterval lastReset midCommand s with ⟨-, hr⟩ | ⟨d, -, hr⟩ <;> simp [hr]

/-- A step on a command word is refused for want of a driver, or by what the decoder says of the word. -/
theorem step_command_refused {s : State} {w : CommandWord} {rest : List HostInput} {r : Refusal}
    (presented : s.inputs = .command w :: rest) :
    step s = .refused r ↔ (s.driver = none ∧ r = .notConstructed) ∨
      (∃ d, s.driver = some d ∧ (∃ e, decode w = .error e) ∧ r = .reservedOpcode) ∨
      (∃ d, s.driver = some d ∧ (∃ target, decode w = .ok (.moveTo target) ∧ d.spr.toNat ≤ target.toNat) ∧
        r = .targetOutOfRange) := by
  cases decodes : decode w with
  | ok i => simp [step, presented, decodes, exec_refused]
  | error e => simp [step, presented, decodes, rejectWord_refused]

/-- Settles O20: only a command word and an overlap can be refused, and the decoder's answers are ranges of the word. -/
theorem refusalsAreExactlyTheFour : Obligations.RefusalsAreExactlyTheFour := by
  intro s r
  cases presented : s.inputs with
  | nil => simp [step, presented, waitForInput]
  | cons input rest =>
    cases input with
    | command w => simp [step_command_refused presented, decode_error_range, decode_moveTo_range, and_assoc]
    | overlap v w => simp [step, presented, rejectOverlap_refused]
    | clock t => simp [step, presented, clockTicks]
    | reset c v l m => simp [step, presented, execReset_ne_refused]

/-- Settles O19: the places of O20, whatever reason is named there. -/
theorem refusedOnlyInTheFourPlaces : Obligations.RefusedOnlyInTheFourPlaces := by
  intro s
  simp only [refusalsAreExactlyTheFour s]
  constructor
  · rintro ⟨r, ⟨w, rest, presented, ⟨absent, -⟩ | ⟨d, -, reserved, -⟩ | ⟨d, hd, low, high, -⟩⟩ |
      ⟨v, w, rest, presented, -⟩⟩
    · exact .inl ⟨w, rest, presented, .inr (.inl absent)⟩
    · exact .inl ⟨w, rest, presented, .inl reserved⟩
    · exact .inl ⟨w, rest, presented, .inr (.inr ⟨d, hd, low, high⟩)⟩
    · exact .inr ⟨v, w, rest, presented⟩
  · cases hs : s.driver with
    | none =>
      rintro (⟨w, rest, presented, -⟩ | ⟨v, w, rest, presented⟩)
      · exact ⟨_, .inl ⟨w, rest, presented, .inl ⟨rfl, rfl⟩⟩⟩
      · exact ⟨_, .inr ⟨v, w, rest, presented, .inl ⟨rfl, rfl⟩⟩⟩
    | some d =>
      rintro (⟨w, rest, presented, reserved | absent | ⟨e, he, low, high⟩⟩ | ⟨v, w, rest, presented⟩)
      · exact ⟨_, .inl ⟨w, rest, presented, .inr (.inl ⟨d, rfl, reserved, rfl⟩)⟩⟩
      · cases absent
      · exact ⟨_, .inl ⟨w, rest, presented, .inr (.inr ⟨e, he, low, high, rfl⟩)⟩⟩
      · exact ⟨_, .inr ⟨v, w, rest, presented, .inr ⟨d, rfl, rfl⟩⟩⟩

/-- Settles O23: a legal SPR is below the top bit, so the target is at or above it. -/
theorem illFormedTargetIsAlwaysRefused : Obligations.IllFormedTargetIsAlwaysRefused := by
  intro s d target hd ⟨_, belowTop, _⟩ illFormed
  have outOfRange : d.spr.toNat ≤ target.toNat := belowTop.le.trans (wf_moveTo_eq_false.1 illFormed)
  exact exec_refused.2 (.inr ⟨d, hd, ⟨target, rfl, outOfRange⟩, rfl⟩)

/-! ### The phase table, a table word, and the response after a reset -/

/-- Settles O1: the table entry by entry, and `pat_ne_zero`. -/
theorem phaseTableHoldsTheEightPatterns : Obligations.PhaseTableHoldsTheEightPatterns :=
  ⟨rfl, pat_ne_zero⟩

/-- Settles O10: the word stands first among the inputs, and taking it leaves the inputs as they were. -/
theorem tableWordRunsNext : Obligations.TableWordRunsNext := by
  intro s nbits w i h
  exact stepRunsTheDecodedCommand _ _ i s.inputs (s.withFetchWord_inputs nbits w) (decodeTableWord_eq_some.1 h)

/-- Settles O13: the new driver, or none, stands on a state whose response was dropped. -/
theorem resetBetweenCommandsLeavesNoResponse : Obligations.ResetBetweenCommandsLeavesNoResponse := by
  intro s t c v l rest presented h
  have taken : execReset c v l false (s.takeInput rest) = .next t := by simpa only [step, presented] using h
  rcases execReset_cases c v l false (s.takeInput rest) with ⟨-, hr⟩ | ⟨d, -, hr⟩
  · cases hr.symm.trans taken
    exact ⟨rfl, rfl⟩
  · cases hr.symm.trans taken
    exact ⟨rfl, rfl⟩

end Sys2Proof.Machine
end

section
/-! PROOFS. The family of spec/40_move_commands.md: MOVE (R65) and MOVETO (R67 to R72). The arc of R67 is the plain
difference or one turn away from it, by the three cases of `shorterArc_cases`; that it is at most half a revolution,
reaches the target and fits SW bits follows from these. Both commands load a count and power up. -/

namespace Sys2Proof.Machine

/-! ### The shorter arc -/

/-- What the arc can be: the plain difference where that is at most half a revolution, one turn less where it is more,
one turn more where it is half a revolution or more the other way. A tie resolved forward is in the first case for a
target above the position and in the last for one below it (R69). -/
theorem shorterArc_cases (tieForward : Bool) {spr : Int} (hspr : 0 ≤ spr) (current target : Int) :
    (shorterArc tieForward spr current target = target - current ∧ 2 * (target - current).natAbs ≤ spr) ∨
    (shorterArc tieForward spr current target = target - current - spr ∧ spr < 2 * (target - current)) ∨
    (shorterArc tieForward spr current target = target - current + spr ∧ spr ≤ 2 * (current - target)) := by
  simp only [shorterArc, Int.abs_eq_natAbs]
  split
  · split <;> omega
  · split
    · cases tieForward with
      | false => exact .inl ⟨rfl, by omega⟩
      | true => simp only [if_true]; omega
    · omega

/-- R71: the arc between two positions is at most half a revolution. -/
theorem two_mul_natAbs_shorterArc_le (tieForward : Bool) {spr current target : Nat} (hc : current < spr)
    (ht : target < spr) : 2 * (shorterArc tieForward spr current target).natAbs ≤ spr := by
  rcases shorterArc_cases tieForward (Int.natCast_nonneg spr) current target with
    ⟨arc, _⟩ | ⟨arc, _⟩ | ⟨arc, _⟩ <;> rw [arc] <;> omega

/-- R68: the arc reaches the target modulo SPR, since it differs from the plain difference by whole turns. -/
theorem add_shorterArc_emod (tieForward : Bool) {spr target : Nat} (current : Nat) (ht : target < spr) :
    ((current : Int) + shorterArc tieForward spr current target) % spr = target := by
  have inRange : (target : Int) % spr = target := by exact_mod_cast Nat.mod_eq_of_lt ht
  rcases shorterArc_cases tieForward (Int.natCast_nonneg spr) current target with
    ⟨arc, -⟩ | ⟨arc, -⟩ | ⟨arc, -⟩ <;> rw [arc]
  · rw [add_sub_cancel, inRange]
  · rw [← add_sub_assoc, add_sub_cancel, Int.sub_emod_right, inRange]
  · rw [← add_assoc, add_sub_cancel, Int.add_emod_right, inRange]

/-- R69: at exactly half a revolution the arc is forward, whichever of target and position is larger. -/
theorem shorterArc_true_of_half {spr current target : Int} (half : 2 * ((target - current).natAbs : Int) = spr) :
    shorterArc true spr current target = spr / 2 := by
  simp only [shorterArc, Int.abs_eq_natAbs, half, gt_iff_lt, lt_irrefl, if_true, if_false]

/-- A number of at most half a legal SPR keeps its value and sign in the width (R72). -/
theorem sext_trunc_of_two_mul_natAbs_le {w spr : Nat} {i : Int} (legal : spr < 2 ^ (w - 1))
    (half : 2 * i.natAbs ≤ spr) : sext (trunc w i) = i := by
  have bound : 2 * i.natAbs < 2 ^ w :=
    (half.trans_lt legal).trans_le (Nat.pow_le_pow_right two_pos (Nat.sub_le w 1))
  rw [sext, trunc, BitVec.toInt_ofInt]
  exact Int.bmod_eq_of_le_mul_two (by omega) (by omega)

/-- Settles O48: the arc is at most half of SPR, so it fits; it reaches the target by R68. -/
theorem shorterArcFitsEveryWidth : Obligations.ShorterArcFitsEveryWidth := by
  intro width tieForward spr current target legal hc ht
  have half := two_mul_natAbs_shorterArc_le tieForward hc ht
  exact ⟨_, rfl, sext_trunc_of_two_mul_natAbs_le legal half, half, add_shorterArc_emod tieForward current.toNat ht⟩

/-! ### Loading a count and powering up -/

/-- The driver after MOVE or MOVETO: the counter, the lines and the trace are written, the rest is kept (R65, R67). -/
theorem Driver.powerUp_load_eq (d : Driver) (n : Count) :
    (d.load n).powerUp =
      { d with remainingSteps := n, lines := pat d.phase, trace := d.trace ++ [.apply (pat d.phase)] } := by
  ext1 <;> simp

/-- MOVETO to a target in range, on a driver: load the arc, power up, answer 0 (R67). -/
theorem exec_moveTo_next {s : State} {d : Driver} {target : Count} (hd : s.driver = some d)
    (inRange : target.toNat < d.spr.toNat) :
    exec (.moveTo target) s = .next (s.complete (d.load (trunc Config.SW
      (shorterArc Config.tieForward (zext d.spr) (zext d.currentStep) (zext target)))).powerUp 0) := by
  refine (State.withDriver_some hd _).trans (if_neg ?_)
  simpa [zext] using inRange

/-- Settles O22: the second of the two refusals in `exec_refused`. -/
theorem targetOutOfRangeIsRefused : Obligations.TargetOutOfRangeIsRefused := by
  intro s d target hd outOfRange
  exact exec_refused.2 (.inr ⟨d, hd, ⟨target, rfl, outOfRange⟩, rfl⟩)

/-- Settles O28: the word is the canonical one; with a driver the command loads and powers up. -/
theorem moveLoadsDeltaAndPowersUp : Obligations.MoveLoadsDeltaAndPowersUp := by
  intro s delta
  refine ⟨decodeAndEncodeAgree.1 (.move delta), fun absent => State.withDriver_none absent _, fun d hd => ?_⟩
  rw [← d.powerUp_load_eq delta]
  exact State.withDriver_some hd _

/-- Settles O29: the rule's formula is `shorterArc` with the tie forward (R69). -/
theorem moveToLoadsShorterArc : Obligations.MoveToLoadsShorterArc := by
  intro s d target hd
  refine ⟨decodeAndEncodeAgree.1 (.moveTo target), ?_⟩
  by_cases outOfRange : d.spr.toNat ≤ target.toNat
  · rw [targetOutOfRangeIsRefused s d target hd outOfRange]
    exact (if_pos (by exact_mod_cast outOfRange)).symm
  · rw [exec_moveTo_next hd (by omega), Driver.powerUp_load_eq]
    refine Eq.trans ?_ (if_neg (by exact_mod_cast outOfRange)).symm
    simp only [shorterArc, Int.abs_eq_natAbs, zext, Config.tieForward, if_true]
    rfl

/-- The count MOVETO loads is the arc itself: nothing wraps in SW bits (R72). -/
theorem exec_moveTo_loads_arc {s : State} {d : Driver} {target : Count} (hd : s.driver = some d)
    (legal : d.LegalConfig) (hc : d.currentStep.toNat < d.spr.toNat) (ht : target.toNat < d.spr.toNat) :
    ∃ t e, exec (.moveTo target) s = .next t ∧ t.driver = some e ∧
      e.remainingSteps.toInt = shorterArc Config.tieForward (zext d.spr) (zext d.currentStep) (zext target) := by
  obtain ⟨-, belowTop, -⟩ := legal
  exact ⟨_, _, exec_moveTo_next hd ht, State.complete_driver ..,
    sext_trunc_of_two_mul_natAbs_le belowTop (two_mul_natAbs_shorterArc_le _ hc ht)⟩

/-- Settles O30: the count is the arc, which has R71's bound and reaches the target. -/
theorem moveToCountReachesTheTarget : Obligations.MoveToCountReachesTheTarget := by
  intro s d target hd legal hc ht
  obtain ⟨t, e, hexec, he, count⟩ := exec_moveTo_loads_arc hd legal hc ht
  refine ⟨t, e, hexec, he, ?_⟩
  rw [count]
  exact ⟨two_mul_natAbs_shorterArc_le _ hc ht, add_shorterArc_emod _ _ ht⟩

/-- Settles O31: the count is the arc, which is +SPR/2 there and reaches the target. -/
theorem halfRevolutionGoesForward : Obligations.HalfRevolutionGoesForward := by
  intro s d target hd legal hc ht tie
  obtain ⟨t, e, hexec, he, count⟩ := exec_moveTo_loads_arc hd legal hc ht
  have forward : shorterArc true d.spr.toNat d.currentStep.toNat target.toNat = (d.spr.toNat / 2 : Nat) :=
    shorterArc_true_of_half (by exact_mod_cast tie)
  have reaches := add_shorterArc_emod true d.currentStep.toNat ht
  rw [forward] at reaches
  exact ⟨t, e, hexec, he, count.trans forward, by exact_mod_cast reaches⟩

end Sys2Proof.Machine
end

section
/-! PROOFS. The family of spec/41_poll_step_engine.md: the timer (R82, R90, R92), POLL (R80 to R88) and the walk of a
MOVE (R91). What a due POLL does to each register is said once, of `Driver.pollStep`; R91 is an induction over the
samples, one register at a time, and R92 one over the quiet run. -/

namespace Sys2Proof.Machine

/-! ### The timer and the position, at every width -/

/-- The microseconds added to a sample are what the timer reads, whether or not the clock wraps (R82). -/
theorem elapsed_add_left {w : Nat} (last k : BitVec w) : elapsed (last + k) last = k := by
  rw [elapsed, BitVec.add_comm, BitVec.add_sub_cancel]

/-- Settles O46: the timer reads the microseconds modulo 2^TW, which is never more than they are. -/
theorem elapsedSurvivesTheClockWrap : Obligations.ElapsedSurvivesTheClockWrap := by
  intro width k last interval
  rw [elapsed_add_left, BitVec.le_def, BitVec.toNat_ofNat]
  exact ⟨rfl, fun due => due.trans (Nat.mod_le k _)⟩

/-- One up, or 0 from SPR - 1 (R85). -/
theorem nextPosition_toNat_cases {w : Nat} {spr current : BitVec w} (h : current.toNat < spr.toNat) :
    (nextPosition spr current).toNat = if current.toNat + 1 = spr.toNat then 0 else current.toNat + 1 := by
  rw [nextPosition_toNat h]
  split
  · next last => rw [last, Nat.mod_self]
  · exact Nat.mod_eq_of_lt (by omega)

/-- Settles O47: the two moves by their cases, and the second undoes the first in each. -/
theorem positionsMoveModuloSprAtEveryWidth : Obligations.PositionsMoveModuloSprAtEveryWidth := by
  intro width spr current h
  have next := nextPosition_toNat_cases h
  refine ⟨next, prevPosition_toNat h, BitVec.eq_of_toNat_eq ?_⟩
  have inRange : (nextPosition spr current).toNat < spr.toNat := by rw [next]; split <;> omega
  rw [prevPosition_toNat inRange, next]
  split
  · next last => simp; omega
  · simp

/-- A remainder modulo SPR keeps its value in the width. -/
theorem toNat_trunc_emod {w : Nat} {spr : BitVec w} (h : 0 < spr.toNat) (i : Int) :
    ((trunc w (i % spr.toNat)).toNat : Int) = i % spr.toNat := by
  have low : 0 ≤ i % spr.toNat := Int.emod_nonneg i (by omega)
  have high : i % spr.toNat < spr.toNat := Int.emod_lt_of_pos i (by omega)
  have width : (spr.toNat : Int) < (2 ^ w : Nat) := by exact_mod_cast spr.isLt
  rw [trunc, BitVec.toNat_ofInt, Int.emod_eq_of_lt low (high.trans width), Int.toNat_of_nonneg low]

/-! ### One step of the motor -/

/-- What a due POLL does to the driver: the clock is read, a step is taken, and at zero the lines go low (R80). -/
def Driver.pollStep (t : Micros) (d : Driver) : Driver := ((d.readClock t).takeStep t).finish

/-- The direction of a step as a number: +1 forward, -1 in reverse (R84). -/
def Driver.stride (d : Driver) : Int := if 0 < d.remainingSteps.toInt then 1 else -1

theorem Driver.stride_of_forward {d : Driver} (h : d.forward = true) : d.stride = 1 :=
  if_pos (of_decide_eq_true h)

theorem Driver.stride_of_not_forward {d : Driver} (h : d.forward = false) : d.stride = -1 :=
  if_neg (of_decide_eq_false h)

/-- One phase back is the reverse stride (R99). -/
theorem phase_add_ofInt_neg_one (p : Phase) : p + BitVec.ofInt 3 (-1) = p - 1 :=
  (BitVec.sub_eq_add_neg p 1).symm

@[simp] theorem Driver.pollStep_phase (d : Driver) (t : Micros) :
    (d.pollStep t).phase = d.phase + BitVec.ofInt 3 d.stride := by
  cases h : d.forward with
  | true => simp [pollStep, h, stride_of_forward h]
  | false => rw [stride_of_not_forward h, phase_add_ofInt_neg_one]; simp [pollStep, h]

theorem Driver.pollStep_remainingSteps (d : Driver) (t : Micros) :
    (d.pollStep t).remainingSteps = d.remainingSteps - BitVec.ofInt Config.SW d.stride := by
  cases h : d.forward with
  | true => simp [pollStep, h, stride_of_forward h]
  | false =>
    have back : (1 : Count) = -BitVec.ofInt Config.SW (-1) := rfl
    rw [stride_of_not_forward h, BitVec.sub_eq_add_neg, ← back]
    simp [pollStep, h]

@[simp] theorem Driver.pollStep_currentStep (d : Driver) (t : Micros) :
    (d.pollStep t).currentStep = trunc Config.SW ((zext d.currentStep + d.stride) % zext d.spr) := by
  cases h : d.forward with
  | true => simp [pollStep, h, stride_of_forward h, nextPosition]
  | false => simp [pollStep, h, stride_of_not_forward h, prevPosition, Int.sub_eq_add_neg]

@[simp] theorem Driver.pollStep_lastStepTimestamp (d : Driver) (t : Micros) :
    (d.pollStep t).lastStepTimestamp = t := by
  simp [pollStep]

@[simp] theorem Driver.pollStep_spr (d : Driver) (t : Micros) : (d.pollStep t).spr = d.spr := by
  simp [pollStep]

@[simp] theorem Driver.pollStep_interval (d : Driver) (t : Micros) : (d.pollStep t).interval = d.interval := by
  simp [pollStep]

/-- The lines hold the pattern of the new phase, or are low where no steps are left (R87). -/
theorem Driver.pollStep_lines (d : Driver) (t : Micros) :
    (d.pollStep t).lines = if (d.pollStep t).remainingSteps = 0 then 0 else pat (d.pollStep t).phase := by
  simp only [pollStep, finish_lines, finish_phase, finish_remainingSteps, takeStep_lines_eq_pat, idle_iff]

/-- The clock read, the new phase's pattern, and all-low where no steps are left (R41). -/
theorem Driver.pollStep_trace (d : Driver) (t : Micros) :
    (d.pollStep t).trace = d.trace ++ [.clockRead t, .apply (pat (d.pollStep t).phase)] ++
      (if (d.pollStep t).remainingSteps = 0 then [.apply 0] else []) := by
  have taken : ((d.readClock t).takeStep t).trace =
      d.trace ++ [.clockRead t, .apply (pat ((d.readClock t).takeStep t).phase)] := by
    cases h : d.forward <;> simp [h]
  simp only [pollStep, finish_trace, finish_phase, finish_remainingSteps, idle_iff, taken]
  split <;> simp

theorem Driver.pollStep_clockTrace (d : Driver) (t : Micros) : (d.pollStep t).clockTrace = d.clockTrace ++ [t] := by
  simp [pollStep]

theorem Driver.pollStep_outputTrace (d : Driver) (t : Micros) :
    (d.pollStep t).outputTrace = d.outputTrace ++ [pat (d.pollStep t).phase] ++
      (if (d.pollStep t).remainingSteps = 0 then [0] else []) := by
  rw [outputTrace, pollStep_trace]
  split <;> simp [outputTrace]

/-- The counter moves one toward zero as a signed number, and nothing wraps (R13, R84). -/
theorem Driver.pollStep_remainingSteps_toInt {d : Driver} (moving : d.remainingSteps ≠ 0) (t : Micros) :
    (d.pollStep t).remainingSteps.toInt = d.remainingSteps.toInt - d.stride := by
  have low := d.remainingSteps.le_two_mul_toInt
  have high := d.remainingSteps.two_mul_toInt_lt
  have nonzero : d.remainingSteps.toInt ≠ 0 := fun h => moving (BitVec.eq_of_toInt_eq h)
  have unit : (BitVec.ofInt Config.SW d.stride).toInt = d.stride := by rw [stride]; split <;> rfl
  rw [pollStep_remainingSteps, BitVec.toInt_sub, unit, stride]
  split <;> exact Int.bmod_eq_of_le_mul_two (by push_cast; omega) (by push_cast; omega)

/-! ### POLL by its three cases -/

/-- POLL without steps left answers 1 (R81). -/
theorem exec_poll_idle {s : State} {d : Driver} (hd : s.driver = some d) (idle : d.remainingSteps = 0) :
    exec .poll s = .next (s.complete d 1) :=
  (State.withDriver_some hd _).trans (if_pos (Driver.idle_iff.2 idle))

/-- POLL before INTERVAL has passed reads the clock and answers 0 (R83). -/
theorem exec_poll_early {s : State} {d : Driver} (hd : s.driver = some d) (moving : d.remainingSteps ≠ 0)
    (early : ¬ d.due s.now = true) : exec .poll s = .next (s.complete (d.readClock s.now) 0) :=
  (State.withDriver_some hd _).trans ((if_neg (mt Driver.idle_iff.1 moving)).trans (if_neg early))

/-- POLL after INTERVAL has passed takes a step (R84 to R88). -/
theorem exec_poll_due {s : State} {d : Driver} (hd : s.driver = some d) (moving : d.remainingSteps ≠ 0)
    (due : d.due s.now = true) :
    exec .poll s = .next (s.complete (d.pollStep s.now) (d.pollStep s.now).pollResult) :=
  (State.withDriver_some hd _).trans ((if_neg (mt Driver.idle_iff.1 moving)).trans (if_pos due))

theorem Driver.pollResult_eq (d : Driver) : d.pollResult = if d.remainingSteps = 0 then 1 else 0 := by
  simp only [pollResult, idle_iff]

/-- Settles O32: the driver put back is the one that stood there. -/
theorem idlePollTouchesNothing : Obligations.IdlePollTouchesNothing := by
  intro s d hd idle
  rw [exec_poll_idle hd idle, State.complete, ← hd]

/-- Settles O33: below INTERVAL a POLL is not due. -/
theorem earlyPollOnlyReadsTheClock : Obligations.EarlyPollOnlyReadsTheClock := by
  intro s d hd moving early
  exact exec_poll_early hd moving (mt Driver.due_iff.1 (Nat.not_le.2 early))

/-- Settles O34: the registers after a due POLL, one by one. -/
theorem duePollTakesOneStep : Obligations.DuePollTakesOneStep := by
  intro s d hd moving _ due
  refine ⟨(d.pollStep s.now).phase, (d.pollStep s.now).remainingSteps, ?phase, ?count, ?state⟩
  case phase => rw [d.pollStep_phase, Driver.stride, ← phase_add_ofInt_neg_one]; split <;> rfl
  case count => rw [Driver.pollStep_remainingSteps_toInt moving, Driver.stride]; split <;> rfl
  case state =>
    rw [exec_poll_due hd moving (Driver.due_iff.2 due), Driver.pollResult_eq, State.complete]
    congr 3
    ext1
    case lines => exact d.pollStep_lines s.now
    case trace => exact d.pollStep_trace s.now
    all_goals simp [Driver.stride]

/-- Settles O35: a due POLL completes; the position is the next or the previous one, by `nextPosition_toNat_cases` and
`prevPosition_toNat`. -/
theorem duePollMovesThePosition : Obligations.DuePollMovesThePosition := by
  intro s d hd moving inRange due
  refine ⟨_, _, exec_poll_due hd moving (Driver.due_iff.2 due), State.complete_driver .., ?_, ?_⟩
  · rw [d.pollStep_currentStep, Driver.stride]
    split
    · exact nextPosition_toNat_cases inRange
    · exact prevPosition_toNat inRange
  · rw [d.pollStep_phase, Driver.stride, BitVec.toNat_add]
    split <;> rfl

/-- Settles O36: idle the counter is zero, early it is not, and due the response is `pollResult`. -/
theorem pollAnswersWhetherIdle : Obligations.PollAnswersWhetherIdle := by
  intro s d hd
  by_cases idle : d.remainingSteps = 0
  · exact ⟨_, d, exec_poll_idle hd idle, rfl, by simp [idle]⟩
  · by_cases due : d.due s.now = true
    · exact ⟨_, _, exec_poll_due hd idle due, rfl, by rw [State.complete_rsp, Driver.pollResult_eq]⟩
    · exact ⟨_, _, exec_poll_early hd idle due, rfl, congrArg some (if_neg idle).symm⟩


/-! ### Steps are never closer than INTERVAL -/

/-- A step of the motor is never a standstill: eight phases, and one of them on (R98, R99). -/
theorem Driver.pollStep_phase_ne (d : Driver) (t : Micros) : (d.pollStep t).phase ≠ d.phase := by
  rw [pollStep_phase, stride]
  split <;> simp

/-- A command moves the phase by a due POLL alone, and else keeps the stored sample too (R11, R14). -/
theorem exec_phase_or_due {i : Instr} {s t : State} {d e : Driver} (hd : s.driver = some d) (he : t.driver = some e)
    (h : exec i s = .next t) :
    (e.phase = d.phase ∧ e.lastStepTimestamp = d.lastStepTimestamp) ∨
    (e.phase ≠ d.phase ∧ d.interval ≤ elapsed e.lastStepTimestamp d.lastStepTimestamp) := by
  obtain ⟨e', r, rfl, effect⟩ := exec_effect hd h
  obtain rfl : e' = e := Option.some.inj he
  rcases effect with rfl | rfl | ⟨-, -, due, rfl⟩ | ⟨n, rfl⟩ | rfl
  · exact .inl ⟨rfl, rfl⟩
  · exact .inl ⟨rfl, rfl⟩
  · refine .inr ⟨d.pollStep_phase_ne s.now, ?_⟩
    rw [← Driver.pollStep, Driver.pollStep_lastStepTimestamp]
    exact of_decide_eq_true due
  · exact .inl ⟨rfl, rfl⟩
  · exact .inl ⟨rfl, rfl⟩

/-- The same of every step that takes no reset. -/
theorem step_phase_or_due {s t : State} {d e : Driver} (keeps : ∀ i ∈ s.inputs.head?, i.keepsInstance = true)
    (hd : s.driver = some d) (he : t.driver = some e) (h : step s = .next t) :
    (e.phase = d.phase ∧ e.lastStepTimestamp = d.lastStepTimestamp) ∨
    (e.phase ≠ d.phase ∧ d.interval ≤ elapsed e.lastStepTimestamp d.lastStepTimestamp) := by
  rcases step_next h with ⟨-, rfl⟩ | ⟨w, i, rest, -, -, hexec⟩ | ⟨m, rest, -, rfl⟩ | ⟨c, v, l, m, rest, hin, -⟩
  · cases hd.symm.trans he
    exact .inl ⟨rfl, rfl⟩
  · exact exec_phase_or_due (s := s.takeInput rest) hd he hexec
  · cases hd.symm.trans he
    exact .inl ⟨rfl, rfl⟩
  · simp [hin, HostInput.keepsInstance] at keeps

/-- A quiet run keeps the stored sample (R14). -/
theorem QuietRun.keeps_timestamp {s t : State} (run : QuietRun s t) {d e : Driver} (hd : s.driver = some d)
    (he : t.driver = some e) : e.lastStepTimestamp = d.lastStepTimestamp := by
  induction run generalizing e with
  | refl => cases hd.symm.trans he; rfl
  | tail _ hmid keeps taken hend still ih =>
    cases hend.symm.trans he
    rcases step_phase_or_due keeps hmid hend taken with ⟨-, kept⟩ | ⟨moved, -⟩
    · exact kept.trans (ih hmid)
    · exact absurd still moved

/-- Settles O49: the second step found its sample due against the first one's, which the quiet run kept. -/
theorem stepsAreNeverCloserThanInterval : Obligations.StepsAreNeverCloserThanInterval := by
  intro s₀ s₁ s₂ s₃ d₀ d₁ d₂ d₃ _ h₁ h₂ h₃ _ _ _ quiet keeps taken moved
  obtain ⟨e, he, -, interval⟩ := step_keeps_config keeps h₂ taken
  cases he.symm.trans h₃
  rcases step_phase_or_due keeps h₂ h₃ taken with ⟨still, -⟩ | ⟨-, due⟩
  · exact absurd still moved
  · rwa [interval, ← quiet.keeps_timestamp h₁ h₂]

/-! ### The walk of a MOVE -/

/-- The driver after a due POLL at each of the samples, in order. -/
def Driver.walk (samples : List Micros) (d : Driver) : Driver := samples.foldl (fun e t => e.pollStep t) d

/-- The driver has one step in the direction `dir` left for each sample, and each sample will find it due (R91). -/
structure Driver.ReadyToWalk (dir : Int) (samples : List Micros) (d : Driver) : Prop where
  direction : samples ≠ [] → dir = 1 ∨ dir = -1
  count : d.remainingSteps.toInt = dir * samples.length
  position : d.currentStep.toNat < d.spr.toNat
  spaced : Spaced d.interval d.lastStepTimestamp samples

namespace Driver.ReadyToWalk

variable {dir : Int} {d : Driver} {t : Micros} {samples : List Micros}

theorem due (h : d.ReadyToWalk dir (t :: samples)) : d.due t = true := decide_eq_true h.spaced.1

theorem stride_eq (h : d.ReadyToWalk dir (t :: samples)) : d.stride = dir := by
  have count := h.count
  rcases h.direction (List.cons_ne_nil _ _) with rfl | rfl
  · exact if_pos (by rw [count, List.length_cons]; omega)
  · exact if_neg (by rw [count, List.length_cons]; omega)

/-- Steps are left exactly while samples are. -/
theorem remainingSteps_eq_zero_iff (h : d.ReadyToWalk dir samples) : d.remainingSteps = 0 ↔ samples = [] := by
  have count := h.count
  rw [← BitVec.toInt_inj, count, show (0 : Count).toInt = 0 from rfl, ← List.length_eq_zero_iff]
  cases samples with
  | nil => simp
  | cons t samples => rcases h.direction (List.cons_ne_nil _ _) with rfl | rfl <;> omega

theorem moving (h : d.ReadyToWalk dir (t :: samples)) : d.remainingSteps ≠ 0 :=
  mt h.remainingSteps_eq_zero_iff.1 (List.cons_ne_nil _ _)

/-- The position after the first step, as an integer modulo SPR (R85). -/
theorem pollStep_position (h : d.ReadyToWalk dir (t :: samples)) :
    ((d.pollStep t).currentStep.toNat : Int) = (d.currentStep.toNat + dir) % d.spr.toNat := by
  rw [pollStep_currentStep, h.stride_eq]
  exact toNat_trunc_emod (by have := h.position; omega) _

/-- After the first step the driver is ready for the rest of the samples. -/
theorem pollStep (h : d.ReadyToWalk dir (t :: samples)) : (d.pollStep t).ReadyToWalk dir samples where
  direction _ := h.direction (List.cons_ne_nil _ _)
  count := by
    rw [pollStep_remainingSteps_toInt h.moving, h.stride_eq, h.count, List.length_cons]
    push_cast
    ring
  position := by
    have positive : 0 < (d.spr.toNat : Int) := by have := h.position; omega
    have inRange := Int.emod_lt_of_pos (d.currentStep.toNat + dir) positive
    rw [← h.pollStep_position] at inRange
    rw [pollStep_spr]
    exact_mod_cast inRange
  spaced := by simpa using h.spaced.2

end Driver.ReadyToWalk

namespace Driver

@[simp] theorem walk_nil (d : Driver) : d.walk [] = d := rfl

@[simp] theorem walk_cons (d : Driver) (t : Micros) (samples : List Micros) :
    d.walk (t :: samples) = (d.pollStep t).walk samples := rfl

theorem walk_lastStepTimestamp (d : Driver) (samples : List Micros) :
    (d.walk samples).lastStepTimestamp = samples.getLast?.getD d.lastStepTimestamp := by
  induction samples generalizing d with
  | nil => rfl
  | cons t samples ih => rw [walk_cons, ih, pollStep_lastStepTimestamp, List.getLast?_cons, Option.getD_some]

theorem walk_clockTrace (d : Driver) (samples : List Micros) :
    (d.walk samples).clockTrace = d.clockTrace ++ samples := by
  induction samples generalizing d with
  | nil => simp
  | cons t samples ih => rw [walk_cons, ih, pollStep_clockTrace, List.append_assoc, List.singleton_append]

/-- A walk that leaves no steps ends with the lines low (R87). -/
theorem walk_lines {d : Driver} {samples : List Micros} (walked : samples ≠ [])
    (idle : (d.walk samples).remainingSteps = 0) : (d.walk samples).lines = 0 := by
  obtain ⟨init, t, rfl⟩ := (List.eq_nil_or_concat samples).resolve_left walked
  rw [List.concat_eq_append, walk, List.foldl_concat] at idle ⊢
  rw [pollStep_lines, if_pos idle]

variable {dir : Int} {d : Driver} {samples : List Micros}

theorem walk_remainingSteps (h : d.ReadyToWalk dir samples) : (d.walk samples).remainingSteps = 0 := by
  induction samples generalizing d with
  | nil => exact BitVec.eq_of_toInt_eq (by simpa using h.count)
  | cons t samples ih => exact ih h.pollStep

theorem walk_phase (h : d.ReadyToWalk dir samples) :
    (d.walk samples).phase = d.phase + BitVec.ofInt 3 (dir * samples.length) := by
  induction samples generalizing d with
  | nil => simp
  | cons t samples ih =>
    rw [walk_cons, ih h.pollStep, pollStep_phase, h.stride_eq, BitVec.add_assoc, ← BitVec.ofInt_add, List.length_cons]
    push_cast
    ring_nf

theorem walk_currentStep (h : d.ReadyToWalk dir samples) :
    ((d.walk samples).currentStep.toNat : Int) = (d.currentStep.toNat + dir * samples.length) % d.spr.toNat := by
  induction samples generalizing d with
  | nil =>
    have inRange : (d.currentStep.toNat : Int) % d.spr.toNat = d.currentStep.toNat := by
      exact_mod_cast Nat.mod_eq_of_lt h.position
    simp [inRange]
  | cons t samples ih =>
    rw [walk_cons, ih h.pollStep, pollStep_spr, h.pollStep_position, Int.emod_add_emod, List.length_cons]
    push_cast
    ring_nf

/-- The patterns of the phases walked through from `p` on, in order (R98, R99). -/
def walkPatterns (dir : Int) (p : Phase) (n : Nat) : List Levels :=
  (List.range n).map fun k : Nat => pat (p + BitVec.ofInt 3 (dir * ((k : Int) + 1)))

/-- The first pattern is that of the next phase, and the rest are walked from there. -/
theorem walkPatterns_succ (dir : Int) (p : Phase) (n : Nat) :
    walkPatterns dir p (n + 1) =
      pat (p + BitVec.ofInt 3 dir) :: walkPatterns dir (p + BitVec.ofInt 3 dir) n := by
  have later (k : Nat) : p + BitVec.ofInt 3 (dir * ((k + 1 : Nat) + 1)) =
      p + BitVec.ofInt 3 dir + BitVec.ofInt 3 (dir * ((k : Int) + 1)) := by
    rw [BitVec.add_assoc, ← BitVec.ofInt_add]
    push_cast
    ring_nf
  rw [walkPatterns, List.range_succ_eq_map, List.map_cons, List.map_map, walkPatterns]
  congr 1
  · simp
  · exact List.map_congr_left fun k _ => congrArg pat (later k)

/-- The walked patterns, and all-low after the last one (R87). -/
theorem walk_outputTrace (h : d.ReadyToWalk dir samples) :
    (d.walk samples).outputTrace = d.outputTrace ++ walkPatterns dir d.phase samples.length ++
      (if samples = [] then [] else [0]) := by
  induction samples generalizing d with
  | nil => simp [walkPatterns]
  | cons t samples ih =>
    have low : (d.pollStep t).remainingSteps = 0 ↔ samples = [] := h.pollStep.remainingSteps_eq_zero_iff
    rw [walk_cons, ih h.pollStep, pollStep_outputTrace, pollStep_phase, h.stride_eq, List.length_cons,
      walkPatterns_succ]
    simp only [low]
    cases samples with
    | nil => simp [walkPatterns]
    | cons u samples => simp

end Driver

/-! ### The run of a MOVE and its polls -/

theorem run_succ {s t : State} (h : step s = .next t) (k : Nat) :
    Host.Core.run core (k + 1) s = Host.Core.run core k t := by
  have taken : core.step s = .next t := h
  simp only [Host.Core.run, taken]

/-- The clock takes a sample and the POLL at it is due: two steps of the machine, one of the motor. -/
theorem run_pollAt_cons {s : State} {d : Driver} {t : Micros} {samples : List Micros} {rest : List HostInput}
    (hd : s.driver = some d) (presented : s.inputs = pollAt (t :: samples) ++ rest) (moving : d.remainingSteps ≠ 0)
    (due : d.due t = true) :
    ∃ u : State, u.driver = some (d.pollStep t) ∧ u.inputs = pollAt samples ++ rest ∧
      u.rsp = some (d.pollStep t).pollResult ∧
      ∀ k, Host.Core.run core (k + 2) s = Host.Core.run core k u := by
  have tick : step s = .next { s with now := t, inputs := .command (encode .poll) :: (pollAt samples ++ rest) } := by
    simp only [step, presented, pollAt, List.cons_append, clockTicks, State.takeInput]
  have poll := exec_poll_due (s := { s with now := t, inputs := pollAt samples ++ rest }) hd moving due
  have taken := (stepRunsTheDecodedCommand { s with now := t, inputs := .command (encode .poll) :: _ } _ _ _ rfl
    (decodeAndEncodeAgree.1 .poll)).trans poll
  exact ⟨_, rfl, rfl, rfl, fun k => (run_succ tick (k + 1)).trans (run_succ taken k)⟩

/-- The polls at the samples walk the driver, and each answers whether steps are left (R88). -/
theorem run_pollAt {s : State} {d : Driver} {dir : Int} {samples : List Micros} {rest : List HostInput}
    (hd : s.driver = some d) (presented : s.inputs = pollAt samples ++ rest) (ready : d.ReadyToWalk dir samples) :
    ∃ t, Host.Core.run core (2 * samples.length) s = .next t ∧ t.driver = some (d.walk samples) ∧ t.inputs = rest ∧
      (s.rsp = some d.pollResult ∨ samples ≠ [] → t.rsp = some (d.walk samples).pollResult) := by
  induction samples generalizing s d with
  | nil => exact ⟨s, rfl, hd, presented, fun answered => answered.resolve_right (absurd rfl)⟩
  | cons sample samples ih =>
    obtain ⟨u, hu, inputs, rsp, two⟩ := run_pollAt_cons hd presented ready.moving ready.due
    obtain ⟨t, hrun, ht, hrest, hrsp⟩ := ih hu inputs ready.pollStep
    exact ⟨t, (two _).trans hrun, ht, hrest, fun _ => hrsp (.inl rsp)⟩

/-- After MOVE the driver is ready for |delta| samples that are spaced (R65). -/
theorem Driver.powerUp_load_readyToWalk {d : Driver} {delta : Count} {samples : List Micros}
    (position : d.currentStep.toNat < d.spr.toNat) (length : samples.length = delta.toInt.natAbs)
    (spaced : Spaced d.interval d.lastStepTimestamp samples) :
    ((d.load delta).powerUp).ReadyToWalk delta.toInt.sign samples where
  direction walked := by
    have nonzero : samples.length ≠ 0 := mt List.length_eq_zero_iff.1 walked
    rcases lt_trichotomy delta.toInt 0 with h | h | h
    · exact .inr (Int.sign_eq_neg_one_of_neg h)
    · omega
    · exact .inl (Int.sign_eq_one_of_pos h)
  count := by rw [length, Int.sign_mul_natAbs]; rfl
  position := position
  spaced := spaced

/-- MOVE presented as its command word loads the delta and powers up (R65). -/
theorem step_move {s : State} {d : Driver} {delta : Count} {rest : List HostInput} (hd : s.driver = some d)
    (presented : s.inputs = .command (encode (.move delta)) :: rest) :
    ∃ t, step s = .next t ∧ t.driver = some (d.load delta).powerUp ∧ t.inputs = rest :=
  ⟨_, (stepRunsTheDecodedCommand s _ _ rest presented (decodeAndEncodeAgree.1 _)).trans (State.withDriver_some hd _),
    rfl, rfl⟩

/-- Settles O50: MOVE makes the driver ready, the polls walk it, and the walk is known register by register. -/
theorem moveIsWalkedStepByStep : Obligations.MoveIsWalkedStepByStep := by
  intro s d delta samples rest hd _ position presented length spaced
  have ready := Driver.powerUp_load_readyToWalk position length spaced
  have walked : delta.toInt.sign * samples.length = delta.toInt := by rw [length, Int.sign_mul_natAbs]
  obtain ⟨u, moved, hu, inputs⟩ := step_move hd presented
  obtain ⟨t, hrun, ht, hrest, hrsp⟩ := run_pollAt hu inputs ready
  have idle := Driver.walk_remainingSteps ready
  refine ⟨t, _, ?run, ht, hrest, idle, ?phase, ?position, ?timestamp, ?clock, ?output, fun h => ⟨?lines, ?response⟩⟩
  case run => rw [Nat.add_comm, run_succ moved, hrun]
  case phase => rw [Driver.walk_phase ready, walked]; rfl
  case position => rw [Driver.walk_currentStep ready, walked]; rfl
  case timestamp => exact Driver.walk_lastStepTimestamp _ samples
  case clock => simp [Driver.walk_clockTrace]
  case output => simp [Driver.walk_outputTrace ready, Driver.walkPatterns]
  case lines => exact Driver.walk_lines h idle
  case response => rw [hrsp (.inr h), Driver.pollResult_eq, if_pos idle]

end Sys2Proof.Machine
end

section
/-! PROOFS. The family of spec/42_phase_output_sequencer.md: the phase table and the internal operations (R97 to R105),
and the output state machine (R102). What a driver shows at its outputs is `Driver.outputs`; one lemma for each thing
that a command does to the driver gives the row it takes, and each command is one of these. -/

namespace Sys2Proof.Machine

/-! ### The output state machine -/

/-- The output state of a driver in output mode: OFF or ON (R102). -/
def Driver.outputs (d : Driver) : OutputState := if d.lines = 0 then .off else .on d.phase

theorem State.outputs_of_driver {s : State} {d : Driver} (hd : s.driver = some d) (oe : s.lineOe = true) :
    s.outputs = d.outputs := by
  simp [State.outputs, Driver.outputs, hd, oe]

theorem State.outputs_of_none {s : State} (absent : s.driver = none) : s.outputs = .undriven := by
  simp [State.outputs, absent]

theorem Driver.outputs_of_lines_eq_zero {d : Driver} (low : d.lines = 0) : d.outputs = .off := if_pos low

theorem Driver.outputs_of_lines_eq_pat {d : Driver} (energized : d.lines = pat d.phase) : d.outputs = .on d.phase :=
  if_neg (energized ▸ pat_ne_zero d.phase)

theorem Driver.outputRow_quiet (d : Driver) : OutputRow .quiet d.outputs d.outputs [] := by
  unfold Driver.outputs
  split
  · exact .stayOff
  · exact .stayOn d.phase

/-- MOVE and MOVETO: the pattern of the phase, from OFF and from ON alike (R100). -/
theorem Driver.outputRow_powerUp (d : Driver) (n : Count) :
    OutputRow .move d.outputs (d.load n).powerUp.outputs [pat d.phase] := by
  rw [outputs_of_lines_eq_pat (powerUp_lines (d.load n)), Driver.outputs]
  split
  · exact .powerUp d.phase
  · exact .reapply d.phase

theorem Driver.outputRow_powerDown (d : Driver) (n : Count) :
    OutputRow .stop d.outputs (d.load n).powerDown.outputs [0] := by
  rw [outputs_of_lines_eq_zero (powerDown_lines (d.load n)), Driver.outputs]
  split
  · exact .stopOff
  · exact .stopOn d.phase

/-- The last step of a move is the one that starts with one step left, in either direction (R87). -/
theorem Driver.pollStep_remainingSteps_eq_zero_iff {d : Driver} (moving : d.remainingSteps ≠ 0) (t : Micros) :
    (d.pollStep t).remainingSteps = 0 ↔ d.remainingSteps.toInt.natAbs = 1 := by
  have count := pollStep_remainingSteps_toInt moving t
  have nonzero : d.remainingSteps.toInt ≠ 0 := fun h => moving (BitVec.eq_of_toInt_eq h)
  have zero : (0 : Count).toInt = 0 := rfl
  rw [← BitVec.toInt_inj, count, zero, stride]
  split <;> omega

/-- A due POLL moves the phase one in the direction of the sign (R98, R99). -/
theorem Driver.pollStep_phase_eq_ite (d : Driver) (t : Micros) :
    (d.pollStep t).phase = if 0 < d.remainingSteps.toInt then d.phase + 1 else d.phase - 1 := by
  rw [pollStep_phase, stride, ← phase_add_ofInt_neg_one]
  split <;> rfl

/-- A due POLL goes to ON, or to OFF where no steps are left. -/
theorem Driver.outputs_pollStep (d : Driver) (t : Micros) :
    (d.pollStep t).outputs = if (d.pollStep t).remainingSteps = 0 then .off else .on (d.pollStep t).phase := by
  have lines := d.pollStep_lines t
  split
  · next last => exact outputs_of_lines_eq_zero (lines.trans (if_pos last))
  · next more => exact outputs_of_lines_eq_pat (lines.trans (if_neg more))

/-- The four rows of a due POLL in one: the direction gives the new phase, and the last step powers down. -/
theorem outputRow_step (forward last : Bool) (p : Phase) :
    OutputRow (.step forward last) (.on p)
      (if last = true then .off else .on (if forward = true then p + 1 else p - 1))
      ([pat (if forward = true then p + 1 else p - 1)] ++ if last = true then [0] else []) := by
  cases forward with
  | true =>
    cases last with
    | true => exact .lastForward p
    | false => exact .forward p
  | false =>
    cases last with
    | true => exact .lastReverse p
    | false => exact .reverse p

/-- A due POLL starts from ON, since a moving block is energized (R23 (f)). -/
theorem Driver.outputRow_pollStep {d : Driver} (hc : d.Consistent) (moving : d.remainingSteps ≠ 0) (t : Micros) :
    OutputRow (.step (0 < d.remainingSteps.toInt) (d.remainingSteps.toInt.natAbs = 1)) d.outputs
      (d.pollStep t).outputs
      ([pat (d.pollStep t).phase] ++ if (d.pollStep t).remainingSteps = 0 then [0] else []) := by
  obtain ⟨-, -, energized⟩ := hc.inRange
  have row := outputRow_step (0 < d.remainingSteps.toInt) (d.remainingSteps.toInt.natAbs = 1) d.phase
  simp only [decide_eq_true_eq] at row
  simp only [outputs_of_lines_eq_pat (energized moving), outputs_pollStep, pollStep_phase_eq_ite,
    pollStep_remainingSteps_eq_zero_iff moving t]
  exact row

theorem Driver.due_eq_false_iff {d : Driver} {t : Micros} :
    d.due t = false ↔ (elapsed t d.lastStepTimestamp).toNat < d.interval.toNat := by
  rw [Driver.due, decide_eq_false_iff_not, BitVec.not_le, BitVec.lt_def]

/-- POLL is quiet where it is idle or not due. -/
theorem Driver.outputCause_poll_quiet {d : Driver} {t : Micros} (h : d.idle = true ∨ d.due t = false) :
    d.outputCause t .poll = .quiet := by
  refine if_pos (h.imp (fun idle => ?_) due_eq_false_iff.1)
  rw [idle_iff.1 idle]
  rfl

/-- POLL is a step where it is moving and due. -/
theorem Driver.outputCause_poll_step {d : Driver} {t : Micros} (moving : d.remainingSteps ≠ 0)
    (due : d.due t = true) : d.outputCause t .poll =
      .step (0 < d.remainingSteps.toInt) (d.remainingSteps.toInt.natAbs = 1) := by
  refine if_neg (not_or.2 ⟨fun h => moving (BitVec.eq_of_toInt_eq h), fun early => ?_⟩)
  simp [due_eq_false_iff.2 early] at due

/-- Every command that answers a next state takes the row of its event, with the `Apply` events of the row. -/
theorem exec_outputRow {i : Instr} {s t : State} {d : Driver} (hd : s.driver = some d) (hc : d.Consistent)
    (h : exec i s = .next t) :
    ∃ e r events, t = s.complete e r ∧ e.outputTrace = d.outputTrace ++ events ∧
      OutputRow (d.outputCause s.now i) d.outputs e.outputs events := by
  obtain ⟨d', e, r, hd', ht, effect⟩ := exec_next h
  obtain rfl : d = d' := Option.some.inj (hd.symm.trans hd')
  refine ⟨e, r, ?_⟩
  rcases effect with ⟨rfl, idle, rfl, -⟩ | ⟨rfl, -, early, rfl, -⟩ | ⟨rfl, idle, due, rfl, -⟩ | ⟨n, rfl, rfl, -⟩ |
    ⟨n, rfl, -, -, rfl⟩ | ⟨rfl, rfl, -⟩ | ⟨rfl, rfl, -⟩ | ⟨rfl, rfl, -⟩
  · refine ⟨[], ht, by simp, ?_⟩
    rw [Driver.outputCause_poll_quiet (.inl idle)]
    exact e.outputRow_quiet
  · refine ⟨[], ht, by simp, ?_⟩
    rw [Driver.outputCause_poll_quiet (.inr early)]
    exact d.outputRow_quiet
  · have moving : d.remainingSteps ≠ 0 := by simpa [Driver.idle] using idle
    refine ⟨_, ht, (d.pollStep_outputTrace s.now).trans (List.append_assoc ..), ?_⟩
    rw [Driver.outputCause_poll_step moving due]
    exact Driver.outputRow_pollStep hc moving s.now
  · exact ⟨_, ht, Driver.outputTrace_powerUp _, d.outputRow_powerUp n⟩
  · exact ⟨_, ht, Driver.outputTrace_powerUp _, d.outputRow_powerUp _⟩
  · exact ⟨_, ht, Driver.outputTrace_powerDown _, d.outputRow_powerDown 0⟩
  · exact ⟨[], ht, by simp, e.outputRow_quiet⟩
  · exact ⟨[], ht, by simp, e.outputRow_quiet⟩

/-- A reset goes to OFF on a legal configuration and to UNDRIVEN on any other, and the new driver has no event yet
(R135, R138). -/
theorem execReset_outputRow {cfgSpr : Count} {cfgInterval lastReset : Micros} {midCommand : Bool} {s t : State}
    (h : execReset cfgSpr cfgInterval lastReset midCommand s = .next t) (o : OutputState) :
    OutputRow (if 0 < cfgSpr.toInt ∧ cfgInterval ≠ 0 then .constructed else .constructionFailed) o t.outputs [] ∧
      ∀ e, t.driver = some e → e.outputTrace = [] := by
  rcases execReset_cases cfgSpr cfgInterval lastReset midCommand s with ⟨illegal, hr⟩ | ⟨d, hd, hr⟩
  · cases hr.symm.trans h
    have notLegal : ¬ (0 < cfgSpr.toInt ∧ cfgInterval ≠ 0) := fun ⟨hspr, hinterval⟩ => illegal.elim hspr.not_ge hinterval
    rw [if_neg notLegal, State.outputs_of_none (State.takeInvalidConfiguration_driver _)]
    exact ⟨.constructFails o, by simp⟩
  · cases hr.symm.trans h
    obtain ⟨legal, rfl⟩ := construct_ok.1 hd
    rw [if_pos legal, State.outputs_of_driver (State.install_driver ..) rfl]
    refine ⟨.construct o, fun e he => ?_⟩
    cases he
    rfl

/-- Settles O52: a command keeps LINE_OE, so both output states are the driver's. -/
theorem outputsFollowTheStateMachine : Obligations.OutputsFollowTheStateMachine := by
  constructor
  · intro s t d i hs hd h
    obtain ⟨oe, -, hc⟩ := (State.inv_iff_consistent hd).1 hs
    obtain ⟨e, r, events, rfl, trace, row⟩ := exec_outputRow hd hc h
    refine ⟨e, events, rfl, trace, ?_⟩
    rwa [State.outputs_of_driver hd oe, State.outputs_of_driver (s.complete_driver e r) oe]
  · intro s t c v l m rest presented h
    have taken : execReset c v l m (s.takeInput rest) = .next t := by simpa only [step, presented] using h
    exact execReset_outputRow taken s.outputs

/-! ### Periodicity -/

theorem Driver.advance_iterate_spr (d : Driver) (n : Nat) : (Driver.advance^[n] d).spr = d.spr := by
  induction n with
  | zero => rfl
  | succ n ih => rw [Function.iterate_succ_apply', advance_spr, ih]

/-- `n` forward steps move the phase by `n` modulo 8 (R98). -/
theorem Driver.advance_iterate_phase (d : Driver) (n : Nat) :
    (Driver.advance^[n] d).phase.toNat = (d.phase.toNat + n) % 8 := by
  induction n with
  | zero => exact (Nat.mod_eq_of_lt d.phase.isLt).symm
  | succ n ih =>
    rw [Function.iterate_succ_apply', advance_phase, BitVec.toNat_add, ih]
    exact Nat.mod_add_mod _ 8 1

/-- `n` forward steps move the position by `n` modulo SPR (R85). -/
theorem Driver.advance_iterate_currentStep {d : Driver} (inRange : d.currentStep.toNat < d.spr.toNat) (n : Nat) :
    (Driver.advance^[n] d).currentStep.toNat = (d.currentStep.toNat + n) % d.spr.toNat := by
  induction n with
  | zero => exact (Nat.mod_eq_of_lt inRange).symm
  | succ n ih =>
    have below : (Driver.advance^[n] d).currentStep.toNat < d.spr.toNat := ih ▸ Nat.mod_lt _ (by omega)
    rw [Function.iterate_succ_apply', advance_currentStep, advance_iterate_spr, nextPosition_toNat below, ih,
      Nat.mod_add_mod, Nat.add_assoc]

/-- Settles O51: SPR steps are no displacement modulo SPR, and one modulo 8 unless 8 divides SPR. -/
theorem forwardStepsArePeriodic : Obligations.ForwardStepsArePeriodic := by
  intro d inRange
  refine ⟨fun n => ⟨d.advance_iterate_phase n, Driver.advance_iterate_currentStep inRange n⟩,
    BitVec.eq_of_toNat_eq ?position, ?phase⟩
  case position =>
    rw [Driver.advance_iterate_currentStep inRange, Nat.add_mod_right, Nat.mod_eq_of_lt inRange]
  case phase =>
    have := d.phase.isLt
    rw [← BitVec.toNat_inj, Driver.advance_iterate_phase]
    omega

/-! ### The phase table and the internal operations -/

/-- Settles O2: each line's levels around the table (R105). -/
theorem oneLineChangesBetweenNeighbours : Obligations.OneLineChangesBetweenNeighbours := by
  intro p id
  cases id with
  | a => revert p; decide
  | b => revert p; decide
  | c => revert p; decide
  | d => revert p; decide

/-- Settles O4: the four `setLine` calls leave the levels given. -/
theorem applyWritesAllFourLines : Obligations.ApplyWritesAllFourLines := by
  intro d v
  rw [Driver.apply, setAllLines_eq]

/-- Settles O5: each transition applies the pattern of the phase it has moved to. -/
theorem phaseTransitionsAreCyclic : Obligations.PhaseTransitionsAreCyclic := by
  intro d
  have undone : d.stepForward.phase - 1 = d.phase := BitVec.add_sub_cancel d.phase 1
  refine ⟨⟨d.phase + 1, BitVec.toNat_add .., applyWritesAllFourLines _ _⟩,
    ⟨d.phase - 1, ?_, applyWritesAllFourLines _ _⟩, undone, ?_⟩
  · rw [BitVec.toNat_sub, Nat.add_comm]; rfl
  · rw [Driver.stepReverse_lines, undone]

/-- Settles O45: STOP keeps phase and timestamp, and MOVE applies the pattern of the phase it finds. -/
theorem powerUpAfterStopRestoresThePhase : Obligations.PowerUpAfterStopRestoresThePhase := by
  intro s t d delta hd h
  have stopped : exec .stop s = .next (s.complete (d.load 0).powerDown 0) := State.withDriver_some hd _
  cases stopped.symm.trans h
  obtain ⟨-, -, loads⟩ := moveLoadsDeltaAndPowersUp (s.complete (d.load 0).powerDown 0) delta
  exact ⟨_, _, loads _ (State.complete_driver ..), rfl, rfl, rfl, rfl⟩

end Sys2Proof.Machine
end

section
/-! PROOFS. The family of spec/43_stop_and_accessors.md: STOP (R110), RDPOS (R112) and RDREM (R113). The three commands
ignore their operand bits; STOP loads 0 and powers down, and an accessor puts back the driver it found with a
response. -/

namespace Sys2Proof.Machine

/-- A command that ignores its operand bits decodes from its opcode above any operand (R55). -/
theorem decode_append_of_ignored {i : Instr} (ignored : i ∈ [Instr.poll, .stop, .rdpos, .rdrem]) (arg : Count) :
    decode (i.opcode ++ arg) = .ok i :=
  decode_ok.2 ⟨(Laws.EncodedFields.fields_of_append i.opcode arg).1, .inr ignored⟩

/-- Answering with the driver as it was changes the response alone. -/
theorem State.complete_of_driver {s : State} {d : Driver} (hd : s.driver = some d) (r : Count) :
    s.complete d r = { s with rsp := some r } := by
  rw [State.complete, ← hd]

/-- The halt register by register: count and lines are 0, and the trace has one more event. -/
theorem Driver.powerDown_load_eq (d : Driver) (n : Count) :
    (d.load n).powerDown = { d with remainingSteps := n, lines := 0, trace := d.trace ++ [.apply 0] } := by
  ext1 <;> simp

/-- Settles O37: with a driver the command loads 0 and powers down. -/
theorem stopHaltsAndDeenergizes : Obligations.StopHaltsAndDeenergizes := by
  intro s arg
  refine ⟨decode_append_of_ignored (i := .stop) (by simp) arg, fun absent => State.withDriver_none absent _,
    fun d hd => ?_⟩
  rw [← d.powerDown_load_eq 0]
  exact State.withDriver_some hd _

/-- RDPOS on a driver answers its position and nothing else (R112). -/
theorem exec_rdpos {s : State} {d : Driver} (hd : s.driver = some d) :
    exec .rdpos s = .next { s with rsp := some d.currentStep } := by
  rw [← State.complete_of_driver hd]
  exact State.withDriver_some hd _

/-- RDREM on a driver answers its count as stored and nothing else (R113). -/
theorem exec_rdrem {s : State} {d : Driver} (hd : s.driver = some d) :
    exec .rdrem s = .next { s with rsp := some d.remainingSteps } := by
  rw [← State.complete_of_driver hd]
  exact State.withDriver_some hd _

/-- Settles O38: the position is in range because the invariant makes the driver consistent (R23 (b)). -/
theorem rdposAnswersThePosition : Obligations.RdposAnswersThePosition := by
  intro s arg
  refine ⟨decode_append_of_ignored (i := .rdpos) (by simp) arg, fun absent => State.withDriver_none absent _,
    fun d hd => ⟨exec_rdpos hd, fun hs => ?_⟩⟩
  obtain ⟨-, -, consistent⟩ := (State.inv_iff_consistent hd).1 hs
  exact consistent.currentStep_lt

/-- Settles O39: the response is the stored pattern itself, so its signed value is the count. -/
theorem rdremAnswersTheSignedCount : Obligations.RdremAnswersTheSignedCount := by
  intro s arg
  exact ⟨decode_append_of_ignored (i := .rdrem) (by simp) arg, fun absent => State.withDriver_none absent _,
    fun d hd => ⟨d.remainingSteps, exec_rdrem hd, rfl⟩⟩

end Sys2Proof.Machine
end

section
/-! PROOFS. The family of spec/60_exceptions.md: the one fault is taken as a next state (R125, R126), so no step ends in
it. A command answers a next state, faults or is refused; since it never faults, what `exec_refused` says of the
refusals says when it completes (R127), and when it has no driver to run on (R122). -/

namespace Sys2Proof.Machine

/-! ### No fault is left standing -/

/-- No command has a fault among its answers. -/
theorem exec_ne_fault (i : Instr) (s : State) (e : Fault) : exec i s ≠ .fault e := by
  intro h
  cases i
  all_goals obtain ⟨d, -, h⟩ := State.withDriver_fault.1 h
  case poll =>
    split at h
    · cases h
    · split at h <;> cases h
  case moveTo => split at h <;> cases h
  all_goals cases h

theorem rejectWord_ne_fault (reason : DecodeError) (s : State) (e : Fault) : rejectWord reason s ≠ .fault e := by
  intro h
  obtain ⟨d, -, h⟩ := State.withDriver_fault.1 h
  cases reason
  cases h

theorem rejectOverlap_ne_fault (s : State) (e : Fault) : rejectOverlap s ≠ .fault e := by
  intro h
  obtain ⟨d, -, h⟩ := State.withDriver_fault.1 h
  cases h

/-- A reset takes the fault of a failed construction as its next state (R125). -/
theorem execReset_ne_fault (cfgSpr : Count) (cfgInterval lastReset : Micros) (midCommand : Bool) (s : State)
    (e : Fault) : execReset cfgSpr cfgInterval lastReset midCommand s ≠ .fault e := by
  rcases execReset_cases cfgSpr cfgInterval lastReset midCommand s with ⟨-, hr⟩ | ⟨d, -, hr⟩ <;> simp [hr]

/-- Settles O25: input by input, whatever the step hands it to does not fault. -/
theorem noStepFaults : Obligations.NoStepFaults := by
  intro s e
  cases presented : s.inputs with
  | nil => simp [step, presented, waitForInput]
  | cons input rest =>
    cases input with
    | command w =>
      cases decodes : decode w with
      | ok i => simp [step, presented, decodes, exec_ne_fault]
      | error reason => simp [step, presented, decodes, rejectWord_ne_fault]
    | overlap v w => simp [step, presented, rejectOverlap_ne_fault]
    | clock t => simp [step, presented, clockTicks]
    | reset c v l m => simp [step, presented, execReset_ne_fault]

/-! ### Commands complete on a driver, and are refused without one -/

/-- Settles O27: of the other two outcomes, a fault never occurs, and a refusal means that there is no driver or that
the target is out of range. -/
theorem everyCommandCompletes : Obligations.EveryCommandCompletes := by
  intro s d i hd inRange
  cases h : exec i s with
  | next t =>
    obtain ⟨-, e, r, -, rfl, -⟩ := exec_next h
    exact ⟨_, e, r, rfl, s.complete_driver e r, s.complete_rsp e r⟩
  | fault e => exact absurd h (exec_ne_fault i s e)
  | refused r =>
    exfalso
    rcases exec_refused.1 h with ⟨absent, -⟩ | ⟨d', hd', ⟨target, rfl, outOfRange⟩, -⟩
    · cases hd.symm.trans absent
    · cases hd.symm.trans hd'
      exact outOfRange.not_gt (of_decide_eq_true inRange)

/-- Settles O21: want of a driver is the first refusal of every command, and of every command word. -/
theorem unconstructedBlockRefusesEveryCommand : Obligations.UnconstructedBlockRefusesEveryCommand := by
  intro s absent
  exact ⟨fun _ => exec_refused.2 (.inl ⟨absent, rfl⟩),
    fun _ _ presented => (step_command_refused presented).2 (.inl ⟨absent, rfl⟩)⟩

/-! ### Nothing but an input changes the state -/

/-- Settles O11: the step on no input waits, and on a clock input writes the level at the clock input. -/
theorem onlyInputsChangeTheState : Obligations.OnlyInputsChangeTheState := by
  refine ⟨fun s nothing => ?wait, fun s t rest presented => ?clock⟩
  case wait => simp only [step, nothing, waitForInput]
  case clock => simp only [step, presented, clockTicks, State.takeInput]

end Sys2Proof.Machine
end

section
/-! PROOFS. The family of spec/70_reset_and_hazards.md: reset and construction (R135), the configuration fixed for the
life of an instance (R137), and the host's duties (R141, R149, R150). A reset is the one input that reads the
configuration inputs; a command keeps what it finds of them; and each input a dutiful host may present is answered. -/

namespace Sys2Proof.Machine

/-! ### Reset -/

/-- The step on a reset takes it from the inputs and constructs, or fails to. -/
theorem step_reset {s : State} {cfgSpr : Count} {cfgInterval lastReset : Micros} {midCommand : Bool}
    {rest : List HostInput} (presented : s.inputs = .reset cfgSpr cfgInterval lastReset midCommand :: rest) :
    step s = execReset cfgSpr cfgInterval lastReset midCommand (s.takeInput rest) := by
  simp only [step, presented]

/-- Dropping the response writes the response port and the counter of draws, and nothing else (R140). -/
theorem State.dropResponse_eq_update (s : State) (midCommand : Bool) :
    ∃ r n, s.dropResponse midCommand = { s with rsp := r, draws := n } := by
  cases midCommand <;> exact ⟨_, _, rfl⟩

/-- Settles O12: a construction fails exactly on the illegal configurations, and one that succeeds is the record of
reset values; either stands on a state that lost its response. -/
theorem resetConstructsOrFails : Obligations.ResetConstructsOrFails := by
  intro s cfgSpr cfgInterval lastReset midCommand rest presented
  have interval_zero : cfgInterval.toNat = 0 ↔ cfgInterval = 0 := BitVec.toNat_inj (y := 0)
  obtain ⟨r, n, dropped⟩ := (s.takeInput rest).dropResponse_eq_update midCommand
  refine ⟨r, n, (step_reset presented).trans ?_⟩
  rcases execReset_cases cfgSpr cfgInterval lastReset midCommand (s.takeInput rest) with ⟨illegal, hr⟩ | ⟨d, hd, hr⟩
  · rw [hr, if_pos (illegal.imp_right interval_zero.2), dropped]
    rfl
  · obtain ⟨⟨spr_pos, interval_ne⟩, rfl⟩ := construct_ok.1 hd
    rw [hr, if_neg (not_or.2 ⟨spr_pos.not_ge, mt interval_zero.1 interval_ne⟩), dropped]
    rfl

/-! ### The configuration, for the life of an instance -/

/-- A command keeps the two status bits, the presence of the driver, and its SPR and INTERVAL (R137). -/
theorem exec_keeps_status_and_config {i : Instr} {s t : State} (h : exec i s = .next t) :
    t.lineOe = s.lineOe ∧ t.cfgErr = s.cfgErr ∧
      t.driver.map (fun e => (e.spr, e.interval)) = s.driver.map (fun d => (d.spr, d.interval)) := by
  obtain ⟨d, -, -, hd, -⟩ := exec_next h
  obtain ⟨e, r, rfl, hspr, hinterval⟩ := exec_keeps_config hd h
  exact ⟨rfl, rfl, by simp [hd, hspr, hinterval]⟩

/-- Settles O44: the step takes nothing, a command or a clock change, and only a command touches the driver. -/
theorem configurationIsFixedForLife : Obligations.ConfigurationIsFixedForLife := by
  intro s t keeps h
  rcases step_next h with ⟨-, rfl⟩ | ⟨w, i, rest, -, -, hexec⟩ | ⟨m, rest, -, rfl⟩ | ⟨c, v, l, m, rest, presented, -⟩
  · exact ⟨rfl, rfl, rfl⟩
  · exact exec_keeps_status_and_config (s := s.takeInput rest) hexec
  · exact ⟨rfl, rfl, rfl⟩
  · simp [presented, HostInput.keepsInstance] at keeps

/-! ### The host's duties -/

/-- A dutiful host presents command words that decode, with the target in range (R141, R150). -/
theorem allowed_command {spr : Count} {w : CommandWord} (h : (HostInput.command w).allowed spr = true) :
    ∃ i, decode w = .ok i ∧ i.wfFor spr = true := by
  cases decodes : decode w with
  | ok i => exact ⟨i, rfl, by simpa [HostInput.allowed, decodes] using h⟩
  | error e => simp [HostInput.allowed, decodes] at h

/-- On a driver, every input a dutiful host may present is answered, and so is none. -/
theorem step_answers_of_allowed {s : State} {d : Driver} (hd : s.driver = some d)
    (dutiful : ∀ i ∈ s.inputs.head?, i.allowed d.spr = true) : ∃ t, step s = .next t := by
  cases presented : s.inputs with
  | nil => exact ⟨s, onlyInputsChangeTheState.1 s presented⟩
  | cons input rest =>
    have allowed : input.allowed d.spr = true := dutiful input (by rw [presented]; rfl)
    cases input with
    | command w =>
      obtain ⟨i, decodes, inRange⟩ := allowed_command allowed
      obtain ⟨t, -, -, answered, -⟩ := everyCommandCompletes { s with inputs := rest } d i hd inRange
      exact ⟨t, (stepRunsTheDecodedCommand s w i rest presented decodes).trans answered⟩
    | overlap v w => cases allowed
    | clock m => exact ⟨_, onlyInputsChangeTheState.2 s m rest presented⟩
    | reset c v l m =>
      obtain ⟨_, _, answered⟩ := resetConstructsOrFails s c v l m rest presented
      exact ⟨_, answered⟩

/-- Settles O26: the step is answered, and every answered step keeps the invariant. -/
theorem dutifulHostIsNeverRefused : Obligations.DutifulHostIsNeverRefused := by
  intro s d hs hd dutiful
  obtain ⟨t, answered⟩ := step_answers_of_allowed hd dutiful
  exact ⟨t, answered, step_keeps_inv hs answered⟩

/-- Settles O24: with a driver, an overlap is refused as such. -/
theorem concurrentCommandIsRefused : Obligations.ConcurrentCommandIsRefused := by
  intro s d v w rest hd presented
  simp only [step, presented]
  exact rejectOverlap_refused.2 (.inr ⟨d, hd, rfl⟩)

end Sys2Proof.Machine
end

section
/-! PROOFS. The encoding vectors of spec/95_test_vectors.md section 2.1. A word of the column `word` is the canonical
word of its command, so it decodes by R59; the POLL with operand bits decodes by R55, the reserved word is rejected by
R56. -/

namespace Sys2Proof.Machine

/-- A word that is the canonical word of a command decodes to it (R46, R59). -/
theorem decode_of_eq_encode {w : CommandWord} {i : Instr} (canonical : w = encode i) : decode w = .ok i :=
  canonical ▸ decodeAndEncodeAgree.1 i

/-- Settles O8: seven words are canonical, 0x0ABCD is POLL above ignored bits, and 0x7FFFF has the opcode 7. -/
theorem specWordsDecode : Obligations.SpecWordsDecode := by
  have pollIgnoresOperand : decode 0x0ABCD = .ok .poll :=
    decode_append_of_ignored (i := .poll) (by simp) 0xABCD
  have reserved : decode 0x7FFFF = .error (.reservedOpcode 7) := by
    have opcode : CommandWord.op 0x7FFFF = 7 := by decide
    rw [decode_error, opcode]
    exact ⟨by decide, rfl⟩
  refine ⟨?poll, pollIgnoresOperand, ?moveBack, ?moveMostNegative, ?moveTo, ?stop, ?rdpos, ?rdrem, reserved⟩
  all_goals exact decode_of_eq_encode (by decide)

end Sys2Proof.Machine
end
